-- ==== Sys2Proof/Word.lean ====
section
/-! DEFINITION. The data word of the engine and its two readings: the signed integer of a word, and the word of an integer
(spec/00_scope.md R10, R11). -/

namespace Sys2Proof

/-- A data word: 64 bits, numbered 63 down to 0 (R10). -/
abbrev Word := BitVec 64

/-- `S(w)`: the signed integer reading of a word, in [-2^63, 2^63 - 1] (R11). -/
abbrev S (w : Word) : Int := w.toInt

/-- `W(n)`: the word that holds the integer `n` modulo 2^64 (R11). -/
abbrev W (n : Int) : Word := BitVec.ofInt 64 n

end Sys2Proof
end

