-- ==== Sys2Proof/Syntax.lean ====
section
/-! DEFINITION. The command set QCORDIC: one constructor per row of spec/opcode_table.json (spec/00_scope.md R2,
spec/30_encoding.md R84). A command carries no operand field (R83, R85). -/

namespace Sys2Proof

/-- The eight commands, in the order of their function codes (30 R84). -/
inductive Instr where
  | sincos
  | sin
  | cos
  | tan
  | asin
  | acos
  | atan
  | atan2
  deriving DecidableEq, Repr

end Sys2Proof
end

