-- ==== Sys2Proof/WellFormed.lean ====
section
/-! DEFINITION. Well-formedness: of a command as syntax (no command has a field that could be ill-formed, spec/30_encoding.md
R83, R85) and of a command word (R86: legal exactly when bits 63:3 are zero). -/

namespace Sys2Proof

/-- A command is well formed when its operand fields are in range. No command has an operand field (30 R83), so each arm
says yes; the arms are written out so that a command with a field could not slip past. -/
def Instr.wf : Instr → Bool
  | .sincos => true
  | .sin => true
  | .cos => true
  | .tan => true
  | .asin => true
  | .acos => true
  | .atan => true
  | .atan2 => true

/-- A command word is legal exactly when `w[63:3] == 0` (30 R86). -/
def legalCommandWord (w : Word) : Bool := w.extractLsb' 3 61 == 0#61

end Sys2Proof
end

