-- ==== Sys2Proof/Decode.lean ====
section
/-! DEFINITION. The command decoder and encoder (spec/30_encoding.md R82 to R86). There is one length and one format, a whole
64-bit word; the decoder is total, and rejects an illegal word by name. -/

namespace Sys2Proof

/-- The function code of a command (30 R84). -/
def Instr.code : Instr → BitVec 3
  | .sincos => 0#3
  | .sin => 1#3
  | .cos => 2#3
  | .tan => 3#3
  | .asin => 4#3
  | .acos => 5#3
  | .atan => 6#3
  | .atan2 => 7#3

/-- The command a function code names; all eight codes are used (30 R84). -/
def Instr.ofCode (c : BitVec 3) : Instr :=
  match c.toFin with
  | 0 => .sincos
  | 1 => .sin
  | 2 => .cos
  | 3 => .tan
  | 4 => .asin
  | 5 => .acos
  | 6 => .atan
  | 7 => .atan2

/-- What the decoder says of a command word (30 R86). -/
inductive Decoded where
  | legal (i : Instr)
  /-- Bits 63:3 are not all zero; `func` is `w[2:0]`, the only part of the word that is kept (41 R131). -/
  | illegalCommand (func : BitVec 3)
  deriving DecidableEq, Repr

/-- The field `func` of a command word, bits 2:0 (30 R83). -/
def funcField (w : Word) : BitVec 3 := w.extractLsb' 0 3

/-- `decode(w) = legal(w[2:0])` if `w[63:3] == 0`, else `illegal` (30 R86). -/
def decode (w : Word) : Decoded :=
  if legalCommandWord w then .legal (Instr.ofCode (funcField w)) else .illegalCommand (funcField w)

/-- The command word of a command: its function code in bits 2:0, bits 63:3 zero (30 R83, R84). -/
def encode (i : Instr) : Word := i.code.setWidth 64

/-- The instruction the decoder reads from the `nbits` low bits of `w`, every bit above them zero. The command word is one
64-bit word, so a value that does not fit in 64 bits is no instruction. -/
def decodeTableWord (nbits w : Nat) : Option Instr :=
  if w % 2 ^ nbits < 2 ^ 64 then
    match decode (BitVec.ofNat 64 (w % 2 ^ nbits)) with
    | .legal i => some i
    | .illegalCommand _ => none
  else none

end Sys2Proof
end

