-- ==== Sys2Proof/Config.lean ====
section
/-! DEFINITION. What the spec leaves open: the free values (UNSPEC, spec/93_implementation_defined.md U1) and the three open
parameters of spec/00_scope.md R9. Every constant here is opaque: no proof can see a value of it. -/

namespace Sys2Proof.Config

/-- The `n`-th free 64-bit word: what an UNSPEC word is (93 U1, treatment 'any value'; assumption log 1). -/
opaque freeWord : Nat → Word

/-- The `n`-th free 6-bit index: what an UNSPEC iteration index is after reset (10 R35, 70 R240; assumption log 4). -/
opaque freeIndex : Nat → BitVec 6

/-- How far the latency of a function lies above one clock cycle (see `latency`). -/
opaque latencyExtra : BitVec 3 → Nat

/-- LATENCY(func): clock cycles from acceptance to completion, at least 1 and independent of the operands
(00 R9, 70 R250). No rule of the spec and no definition of the model reads it (assumption log 13). -/
def latency (func : BitVec 3) : Nat := latencyExtra func + 1

/-- The byte orders a platform's narrower bus may have (20 R60). -/
inductive ByteOrder where
  | littleEndian
  | bigEndian
  deriving DecidableEq, Repr, Inhabited

/-- BUS_BYTE_ORDER (00 R9, 20 R60): read by no rule (assumption log 13). -/
opaque busByteOrder : ByteOrder

/-- How the `rst` pin may be sampled (70 R240). -/
inductive ResetKind where
  | synchronous
  | asynchronous
  deriving DecidableEq, Repr, Inhabited

/-- RESET_KIND (00 R9, 70 R240): read by no rule (assumption log 13). -/
opaque resetKind : ResetKind

end Sys2Proof.Config
end

