-- ==== Sys2Proof/Machine/State.lean ====
section
/-! DEFINITION. The state of one engine as plain data (spec/10_state.md R20), the events of its environment, the reasons a
step can stop, and the state right after reset (R35). -/

namespace Sys2Proof.Machine

/-- The sequencer state PHASE (10 R20, R27). -/
inductive Phase where
  | idle
  | setup
  | iter
  | final
  deriving DecidableEq, Repr

/-- The fault causes of 60 R211. The codes 4 to 15 are never produced, so CAUSE is one of four values (93 U12). -/
inductive Cause where
  | none
  | domain
  | zeroVector
  | illegalCmd
  deriving DecidableEq, Repr

/-- A host transaction `(we, addr, wdata)` (30 R80). `wdata` means something only in a write. -/
structure Transaction where
  we : Bool
  addr : BitVec 8
  wdata : Word
  deriving DecidableEq, Repr

/-- What happens next to one engine: a step of the host, of the engine, or of the environment (41 R130), or one of the
host's statements that are made of such steps (30 R88, R89). -/
inductive Event where
  /-- One bus transaction of the host (30 R80). -/
  | bus (t : Transaction)
  /-- One micro-step of the engine (41 R130). -/
  | micro
  /-- A write of the command word `w` to CMD, and then the engine alone until PHASE is IDLE: the command as one function
  (41 R138; assumption log 7). -/
  | command (w : Word)
  /-- `WAIT`: read STATUS until bit 0 of the value read is 0 (30 R88; assumption log 16). -/
  | poll
  /-- The second half of `MOV`: write the word last read to `dst` (30 R89; assumption log 16). -/
  | copy (dst : BitVec 8)
  /-- Reset, an action of the environment (70 R240). -/
  | reset
  deriving DecidableEq, Repr

/-- The state: everything 10 R20 lists, and three fields of the model's own at the end. STATUS.BUSY has no storage: it is
1 exactly while PHASE is not IDLE (10 R28). CMD is a port and has none either (10 R30). -/
structure State where
  /-- Operand register A (10 R21). -/
  a : Word
  /-- Operand register B (10 R21). -/
  b : Word
  /-- Result register R0 (10 R22). -/
  r0 : Word
  /-- Result register R1 (10 R22). -/
  r1 : Word
  /-- Working register X (10 R23). -/
  x : Word
  /-- Working register Y (10 R23). -/
  y : Word
  /-- Working register Z (10 R23). -/
  z : Word
  /-- Working register V, the target of a vectoring command (10 R24). -/
  v : Word
  /-- Working register F, the signed gain factor (10 R25). -/
  f : Word
  /-- Iteration index KI, 6 bits (10 R26). -/
  ki : BitVec 6
  /-- PHASE (10 R27). -/
  phase : Phase
  /-- FUNC, the function code of the last decoded command (10 R20, R28). -/
  func : BitVec 3
  /-- STATUS.DONE (10 R28, R29). -/
  done : Bool
  /-- STATUS.ERR (10 R28, R29). -/
  err : Bool
  /-- STATUS.OVR, sticky (10 R28, R29). -/
  ovr : Bool
  /-- STATUS.CAUSE (10 R28, 60 R211). -/
  cause : Cause
  /-- The model's own: the number of the next free value (assumption log 1). -/
  free : Nat
  /-- The model's own: the word the last bus read answered (30 R80; assumption log 5). -/
  rdata : Word
  /-- The model's own: what happens next, oldest first (20 R65, 93 U21; assumption log 6). -/
  events : List Event
  deriving DecidableEq, Repr

/-- The reasons a step stops with a fault. The engine's own faults (60 R211) are not here: each is a next state with ERR and
CAUSE written. -/
inductive Fault where
  /-- An ITER micro-step with KI above 31. Raised by `micro`. The spec says KI is 0 to 31 in every ITER micro-step (10 R26)
  and gives no effect for another value. Safe: it stops, and only in states that no run reaches (assumption log 9). -/
  | iterIndexOutOfRange
  deriving DecidableEq, Repr

/-- The reasons a step is refused. -/
inductive Refusal where
  /-- An instruction that has no meaning yet. Raised by an arm of `exec` only; no arm does. Safe: it stops. -/
  | notModelled (mnemonic : String)
  deriving DecidableEq, Repr

/-- The state right after reset (10 R35, 70 R240): A, B and STATUS zero, PHASE IDLE. The eight registers the spec leaves
UNSPEC (R0, R1, X, Y, Z, V, F, KI) hold the named value 0 (assumption log 3), which no read can show; nothing is scheduled
and nothing has been read. -/
def State.reset : State where
  a := 0#64
  b := 0#64
  r0 := 0#64
  r1 := 0#64
  x := 0#64
  y := 0#64
  z := 0#64
  v := 0#64
  f := 0#64
  ki := 0#6
  phase := .idle
  func := 0#3
  done := false
  err := false
  ovr := false
  cause := .none
  free := 0
  rdata := 0#64
  events := []

end Sys2Proof.Machine
end

