-- ==== Sys2Proof/Machine/Operands.lean ====
section
/-! DEFINITION. The operands a command reads and the results it writes (spec/10_state.md R21, R22; spec/30_encoding.md R84,
R85), and the types the per-command functions of spec/41_command_lifecycle.md R146 speak in. -/

namespace Sys2Proof

/-- The rotation-mode commands: SINCOS, SIN, COS, TAN (41 R133). The other four are vectoring-mode commands. -/
def Instr.isRotation : Instr → Bool
  | .sincos => true
  | .sin => true
  | .cos => true
  | .tan => true
  | .asin => false
  | .acos => false
  | .atan => false
  | .atan2 => false

/-- The commands that write a second result: SINCOS, ASIN, ACOS, ATAN (10 R22). -/
def Instr.hasPair : Instr → Bool
  | .sincos => true
  | .sin => false
  | .cos => false
  | .tan => false
  | .asin => true
  | .acos => true
  | .atan => true
  | .atan2 => false

namespace Machine

/-- The three working values an ITER micro-step reads and writes together (10 R23). -/
structure Vec where
  x : Word
  y : Word
  z : Word
  deriving DecidableEq, Repr

/-- The answer of `setup` (41 R146): a fault, or the start values. `none` for `v0` or `f0` is the spec's UNSPEC: SETUP does
not write that register (10 R24, R25; assumption log 8). -/
inductive SetupAnswer where
  | fault (c : Cause)
  | start (p : Vec) (v0 f0 : Option Word)
  deriving DecidableEq, Repr

/-- The answer of `final` (41 R146): `r0`, and `r1` where the command has a second result; `none` is UNSPEC. -/
structure Results where
  r0 : Word
  r1 : Option Word
  deriving DecidableEq, Repr

/-- The operand words of the command in the state: the whole words of A and B, unchanged (30 R85). -/
def operandA (s : State) : Word := s.a

/-- Operand B, read by ATAN2 alone (10 R21). -/
def operandB (s : State) : Word := s.b

/-- The command that FUNC names. -/
def currentInstr (s : State) : Instr := Instr.ofCode s.func

/-- The working vector (X, Y, Z) of a state. -/
def workVec (s : State) : Vec := ⟨s.x, s.y, s.z⟩

end Machine
end Sys2Proof
end

