-- ==== Sys2Proof/Machine/Fixed.lean ====
section
/-! DEFINITION. The fixed-point primitives (spec/40_fixed_point_primitives.md) and the named constants (spec/00_scope.md
R13). Each operation takes the operands' signed integers, computes exactly, and narrows at the end. -/

namespace Sys2Proof

/-! ### Named constants, raw Q32.32 words (00 R13) -/

namespace Const

def ZERO : Word := 0x0000000000000000#64
def ONE : Word := 0x0000000100000000#64
def NEG_ONE : Word := 0xFFFFFFFF00000000#64
def MIN : Word := 0x8000000000000000#64
def MAX : Word := 0x7FFFFFFFFFFFFFFF#64
def EPS : Word := 0x000000000000002B#64
def PI : Word := 0x00000003243F6A89#64
def HALF_PI : Word := 0x00000001921FB544#64
def TWO_PI : Word := 0x00000006487ED512#64
def THREE_HALF_PI : Word := 0x00000004B65F1FCD#64
def NEG_PI : Word := 0xFFFFFFFCDBC09577#64

end Const

namespace Fixed

/-! ### Adders (40 R101 to R104) -/

/-- `add(a, b) = W(S(a) + S(b))`, wrapping (R101). -/
def add (a b : Word) : Word := W (S a + S b)

/-- `sub(a, b) = W(S(a) - S(b))`, wrapping (R102). -/
def sub (a b : Word) : Word := W (S a - S b)

/-- `neg(a) = W(-S(a))`; `neg(MIN) = MIN` (R103). -/
def neg (a : Word) : Word := W (-S a)

/-- `abs(a)` is `a` when `S(a) ≥ 0`, else `neg(a)`; `abs(MIN) = MIN` (R104). -/
def abs (a : Word) : Word := if 0 ≤ S a then a else neg a

/-! ### The barrel shifter (40 R105) -/

/-- `asr(a, k) = W(floor(S(a) / 2^k))` for k = 0..31 (R105). Integer division by a positive number rounds toward minus infinity.
DESIGN CHOICE (log 21): the spec does not define shift amounts of 32 and above, which never occur; here the same floored quotient
stands for them. Safe in runs: ITER stops for KI above 31. -/
def asr (a : Word) (k : Nat) : Word := W (S a / 2 ^ k)

/-! ### The multiplier chain (40 R106, R107) -/

/-- The exact signed product, shifted right by 32 and floored; not yet narrowed to a word. -/
def flooredProduct (a b : Word) : Int := S a * S b / 2 ^ 32

/-- `clamp(n, lo, hi)` (R107). -/
def clamp (n lo hi : Int) : Int := if n < lo then lo else if hi < n then hi else n

/-- `mul(a, b) = W(floor(S(a) · S(b) / 2^32))`, wrapping (R106). -/
def mul (a b : Word) : Word := W (flooredProduct a b)

/-- `smul(a, b) = W(clamp(floor(S(a) · S(b) / 2^32), -2^63, 2^63 - 1))`, saturating (R107). -/
def smul (a b : Word) : Word := W (clamp (flooredProduct a b) (-2 ^ 63) (2 ^ 63 - 1))

/-! ### The divider (40 R108, R109)

Neither operation is defined for a zero divisor (93 U4), so each takes a proof that the divisor is nonzero: no call with a
zero divisor can be written (assumption log 10). -/

/-- `div(a, b) = W(trunc(S(a) · 2^32 / S(b)))`, wrapping, rounded toward zero (R108). -/
def div (a b : Word) (_ : S b ≠ 0) : Word := W (Int.tdiv (S a * 2 ^ 32) (S b))

/-- `rem(a, b) = S(a) - trunc(S(a) / S(b)) · S(b)` (R109). -/
def rem (a b : Word) (_ : S b ≠ 0) : Word := W (S a - Int.tdiv (S a) (S b) * S b)

/-! ### Narrowing (40 R113) -/

/-- `narrow(t) = W(floor(S(t) / 2^28))`, from Q4.60 to Q32.32 (R113). -/
def narrow (t : Word) : Word := W (S t / 2 ^ 28)

end Fixed
end Sys2Proof
end

