-- ==== Sys2Proof/Machine/Rom.lean ====
section
/-! DEFINITION. The rotation-table ROM: 65 words of Q4.60 (spec/20_memory.md R50 to R52), and the narrowed values every
micro-step uses (R53). The ROM is a constant, not state (R54). -/

namespace Sys2Proof.Rom

/-- The words `ANGLE60[0]` to `ANGLE60[31]` (20 R51). -/
def angle60Table : List Word :=
  [ 0x0C90FDAA22168C23#64, 0x076B19C1586ED3DA#64, 0x03EB6EBF25901BAC#64, 0x01FD5BA9AAC2F6DC#64,
    0x00FFAADDB967EF4E#64, 0x007FF556EEA5D893#64, 0x003FFEAAB776E535#64, 0x001FFFD555BBBA97#64,
    0x000FFFFAAAADDDDC#64, 0x0007FFFF55556EEF#64, 0x0003FFFFEAAAAB77#64, 0x0001FFFFFD55555C#64,
    0x0000FFFFFFAAAAAB#64, 0x00007FFFFFF55555#64, 0x00003FFFFFFEAAAB#64, 0x00001FFFFFFFD555#64,
    0x00000FFFFFFFFAAB#64, 0x000007FFFFFFFF55#64, 0x000003FFFFFFFFEB#64, 0x000001FFFFFFFFFD#64,
    0x0000010000000000#64, 0x0000008000000000#64, 0x0000004000000000#64, 0x0000002000000000#64,
    0x0000001000000000#64, 0x0000000800000000#64, 0x0000000400000000#64, 0x0000000200000000#64,
    0x0000000100000000#64, 0x0000000080000000#64, 0x0000000040000000#64, 0x0000000020000000#64 ]

/-- The words `COS60[0]` to `COS60[31]` (20 R51). -/
def cos60Table : List Word :=
  [ 0x0B504F333F9DE648#64, 0x0E4F92E2DFF6EC9B#64, 0x0F85B42469578E14#64, 0x0FE05EC45078EC99#64,
    0x0FF805FB045C1399#64, 0x0FFE005FEC045F04#64, 0x0FFF8005FFB00460#64, 0x0FFFE0005FFEC004#64,
    0x0FFFF80005FFFB00#64, 0x0FFFFE00005FFFEC#64, 0x0FFFFF8000060000#64, 0x0FFFFFE000006000#64,
    0x0FFFFFF800000600#64, 0x0FFFFFFE00000060#64, 0x0FFFFFFF80000006#64, 0x0FFFFFFFE0000000#64,
    0x0FFFFFFFF8000000#64, 0x0FFFFFFFFE000000#64, 0x0FFFFFFFFF800000#64, 0x0FFFFFFFFFE00000#64,
    0x0FFFFFFFFFF80000#64, 0x0FFFFFFFFFFE0000#64, 0x0FFFFFFFFFFF8000#64, 0x0FFFFFFFFFFFE000#64,
    0x0FFFFFFFFFFFF800#64, 0x0FFFFFFFFFFFFE00#64, 0x0FFFFFFFFFFFFF80#64, 0x0FFFFFFFFFFFFFE0#64,
    0x0FFFFFFFFFFFFFF8#64, 0x0FFFFFFFFFFFFFFE#64, 0x1000000000000000#64, 0x1000000000000000#64 ]

/-- `ROM.K60` (20 R52). -/
def k60 : Word := 0x09B74EDA8435E5A7#64

/-- `ROM.ANGLE60[k]` for k = 0..31. No read uses an index above 31 (20 R56; assumption log 17). -/
def angle60 (k : Nat) : Word := angle60Table.getD k 0#64

/-- `ROM.COS60[k]` for k = 0..31. No read uses an index above 31 (20 R56; assumption log 17). -/
def cos60 (k : Nat) : Word := cos60Table.getD k 0#64

/-- `ANGLE[k] = narrow(ROM.ANGLE60[k])` (20 R53). -/
def angle (k : Nat) : Word := Fixed.narrow (angle60 k)

/-- `COS[k] = narrow(ROM.COS60[k])` (20 R53). -/
def cos (k : Nat) : Word := Fixed.narrow (cos60 k)

/-- `K = narrow(ROM.K60)` (20 R53). -/
def gainK : Word := Fixed.narrow k60

/-- `NEG_K = neg(K)` (00 R13, 20 R53). -/
def gainNegK : Word := Fixed.neg gainK

end Sys2Proof.Rom
end

