-- ==== Sys2Proof/Machine/Vectoring.lean ====
section
/-! DEFINITION. Vectoring mode (spec/43_vectoring_mode.md): the shared iteration, and `setup`, the step condition and `final`
of ASIN, ACOS and ATAN as pure functions. -/

namespace Sys2Proof.Machine

open Sys2Proof.Const Sys2Proof.Fixed

/-- `iter` of vectoring mode at index `k`, in the direction `ccw` (43 R181): rotate by shifts and adds, then one multiply by
COS[k] on each new coordinate; the angle accumulates in Z. The spec gives k = 0..31 only; above
that `asr` and the table entries are the model's choice (logs 21 and 17), and no run gets there. -/
def vectorStep (ccw : Bool) (k : Nat) (p : Vec) : Vec :=
  if ccw then
    ⟨mul (sub p.x (asr p.y k)) (Rom.cos k), mul (add p.y (asr p.x k)) (Rom.cos k), add p.z (Rom.angle k)⟩
  else
    ⟨mul (add p.x (asr p.y k)) (Rom.cos k), mul (sub p.y (asr p.x k)) (Rom.cos k), sub p.z (Rom.angle k)⟩

/-! ### ASIN (43 R182) -/

/-- `setup` of ASIN. -/
def setupAsin (a : Word) : SetupAnswer :=
  if S a < S NEG_ONE ∨ S ONE < S a then .fault .domain
  else .start ⟨ONE, ZERO, ZERO⟩ (some a) none

/-- The step condition of ASIN. -/
def ccwAsin (p : Vec) (v : Word) : Bool :=
  decide ((0 < S p.x ∧ S p.y < S v) ∨ (S p.x < 0 ∧ S v < S p.y))

/-- `final` of ASIN. -/
def finalAsin (p : Vec) : Results :=
  if 0 < S p.z then ⟨p.z, some (sub PI p.z)⟩ else ⟨sub NEG_PI p.z, some p.z⟩

/-! ### ACOS (43 R183) -/

/-- `setup` of ACOS. -/
def setupAcos (a : Word) : SetupAnswer :=
  if S a < S NEG_ONE ∨ S ONE < S a then .fault .domain
  else .start ⟨ZERO, ONE, HALF_PI⟩ (some a) none

/-- The step condition of ACOS. -/
def ccwAcos (p : Vec) (v : Word) : Bool :=
  decide ((0 < S p.y ∧ S v < S p.x) ∨ (S p.y < 0 ∧ S p.x < S v))

/-- `final` of ACOS. -/
def finalAcos (p : Vec) : Results := ⟨neg p.z, some p.z⟩

/-! ### ATAN (43 R184) -/

/-- `setup` of ATAN: no domain restriction. -/
def setupAtan (a : Word) : SetupAnswer := .start ⟨ONE, ZERO, ZERO⟩ (some a) none

/-- The step condition of ATAN, and of ATAN2: `y < smul(v, x)`. -/
def ccwAtan (p : Vec) (v : Word) : Bool := decide (S p.y < S (smul v p.x))

/-- The candidate pair of ATAN. -/
def atanCandidates (z : Word) : Word × Word := if 0 < S z then (sub z PI, z) else (z, add z PI)

/-- `final` of ATAN. -/
def finalAtan (p : Vec) : Results := ⟨(atanCandidates p.z).1, some (atanCandidates p.z).2⟩

end Sys2Proof.Machine
end

