-- ==== Sys2Proof/Machine/Atan2.lean ====
section
/-! DEFINITION. ATAN2 (spec/44_atan2.md R200): `setup` and `final` as pure functions; its iteration is ATAN's. -/

namespace Sys2Proof.Machine

open Sys2Proof.Const Sys2Proof.Fixed

/-- A word is not the all-zero word exactly when its signed value is not 0 (40 R114); the guard of ATAN2's division. -/
theorem signed_ne_zero {b : Word} (h : ¬ b = 0#64) : S b ≠ 0 := by
  intro hb
  exact h (BitVec.eq_of_toInt_eq (by simpa using hb))

/-- The ratio of ATAN2: MAX for a zero denominator, else the wrapping quotient (44 R200). -/
def ratio (a b : Word) : Word := if h : b = 0#64 then MAX else div a b (signed_ne_zero h)

/-- `setup` of ATAN2: the zero vector faults before any division (44 R200, 60 R217). -/
def setupAtan2 (a b : Word) : SetupAnswer :=
  if a = 0#64 ∧ b = 0#64 then .fault .zeroVector
  else .start ⟨ONE, ZERO, ZERO⟩ (some (ratio a b)) none

/-- `final` of ATAN2: the first ATAN candidate when the operand y is negative, else the second (44 R200). -/
def finalAtan2 (p : Vec) (a : Word) : Results :=
  ⟨if S a < 0 then (atanCandidates p.z).1 else (atanCandidates p.z).2, none⟩

end Sys2Proof.Machine
end

