-- ==== Sys2Proof/Machine/Flags.lean ====
section
/-! DEFINITION. STATUS: its fields, its word, the validity of the result registers and the status wires
(spec/10_state.md R22, R28, R29, R31). -/

namespace Sys2Proof.Machine

/-- CAUSE's code (60 R211). -/
def Cause.code : Cause → BitVec 4
  | .none => 0#4
  | .domain => 1#4
  | .zeroVector => 2#4
  | .illegalCmd => 3#4

/-- STATUS.BUSY: 1 exactly while PHASE is not IDLE (10 R28). -/
def busy (s : State) : Bool := decide (s.phase ≠ .idle)

/-- A flag as a 64-bit word of value 0 or 1. -/
def flagWord (b : Bool) : Word := if b then 1#64 else 0#64

/-- The STATUS word: BUSY in bit 0, DONE 1, ERR 2, OVR 3, CAUSE 7:4, FUNC 10:8, the rest zero (10 R28). -/
def statusWord (s : State) : Word :=
  flagWord (busy s) ||| flagWord s.done <<< 1 ||| flagWord s.err <<< 2 ||| flagWord s.ovr <<< 3 |||
    s.cause.code.setWidth 64 <<< 4 ||| s.func.setWidth 64 <<< 8

/-- R0 holds a defined value exactly while DONE is 1 (10 R22). -/
def r0Valid (s : State) : Bool := s.done

/-- R1 holds a defined value exactly while DONE is 1 and FUNC is a command with a second result (10 R22). -/
def r1Valid (s : State) : Bool := s.done && (currentInstr s).hasPair

/-- The output wire `busy` (10 R31). -/
def busyWire (s : State) : Bool := busy s

/-- The output wire `done` (10 R31). -/
def doneWire (s : State) : Bool := s.done

/-- The output wire `err` (10 R31). -/
def errWire (s : State) : Bool := s.err

end Sys2Proof.Machine
end

