-- ==== Sys2Proof/Machine/Ops.lean ====
section
/-! DEFINITION. The shared operations on the state: accepting a command, taking a fault, the writes of SETUP, ITER and FINAL,
the host's reads and writes, and reset. -/

namespace Sys2Proof.Machine

/-! ### Accepting a command, and the fault (41 R131, 60 R213) -/

/-- A legal command is accepted (41 R131). It also replaces an earlier fault record: there is no other return from a fault
(60 R221). -/
def accept (i : Instr) (s : State) : State :=
  { s with func := i.code, done := false, err := false, cause := .none, phase := .setup }

/-- `raise <Fault>`: ERR <- 1, CAUSE <- code, DONE <- 0, PHASE <- IDLE, and nothing else (60 R213, 41 R134). -/
def raise (c : Cause) (s : State) : State :=
  { s with err := true, cause := c, done := false, phase := .idle }

/-- The illegal branch of a CMD write: FUNC <- w[2:0] and the fault ILLEGAL_CMD (41 R131). -/
def rejectCommand (func : BitVec 3) (s : State) : State := raise .illegalCmd { s with func := func }

/-- A host write to A, B or CMD while busy changes nothing except OVR <- 1 (41 R141). -/
def dropWrite (s : State) : State := { s with ovr := true }

/-! ### The writes of the three micro-steps (41 R133 to R137) -/

/-- What SETUP writes when it does not fault (41 R133). -/
def start (p : Vec) (v0 f0 : Option Word) (s : State) : State :=
  { s with x := p.x, y := p.y, z := p.z, v := v0.getD s.v, f := f0.getD s.f, ki := 0#6, phase := .iter }

/-- What ITER writes: X, Y, Z (41 R135), KI and PHASE (41 R136). -/
def advance (p : Vec) (s : State) : State :=
  { s with x := p.x, y := p.y, z := p.z, ki := s.ki + 1#6, phase := if s.ki = 31#6 then .final else .iter }

/-- What FINAL writes (41 R137). An UNSPEC R1 becomes a free value (assumption log 2). -/
def complete (r : Results) (s : State) : State :=
  { s with
    r0 := r.r0
    r1 := r.r1.getD (Config.freeWord s.free)
    free := if r.r1.isSome then s.free else s.free + 1
    done := true, err := false, cause := .none, phase := .idle }

/-! ### The host register space (20 R58) -/

/-- The word of the ROM window at word address `n`, 0x40 ≤ n ≤ 0x80 (20 R57). -/
def romWindow (n : Nat) : Word :=
  if n = 0x80 then Rom.k60
  else if n % 2 = 0 then Rom.angle60 ((n - 0x40) / 2)
  else Rom.cos60 ((n - 0x40) / 2)

/-- What a read of a word address returns (20 R58); `none` is UNSPEC (10 R22). -/
def readRegister (addr : BitVec 8) (s : State) : Option Word :=
  if addr = 0x00#8 then some s.a
  else if addr = 0x01#8 then some s.b
  else if addr = 0x02#8 then some 0#64
  else if addr = 0x03#8 then some (statusWord s)
  else if addr = 0x04#8 then (if r0Valid s then some s.r0 else none)
  else if addr = 0x05#8 then (if r1Valid s then some s.r1 else none)
  else if 0x40 ≤ addr.toNat ∧ addr.toNat ≤ 0x80 then some (romWindow addr.toNat)
  else some 0#64

/-- A read delivers its word; an UNSPEC word is the next free value (93 U1; assumption log 1). -/
def answerRead (answer : Option Word) (s : State) : State :=
  match answer with
  | some w => { s with rdata := w }
  | none => { s with rdata := Config.freeWord s.free, free := s.free + 1 }

/-- `BusRead(addr)` (30 R80). -/
def busRead (addr : BitVec 8) (s : State) : State := answerRead (readRegister addr s) s

/-- The CMD write (41 R131, R141). -/
def writeCommand (w : Word) (s : State) : State :=
  if s.phase = .idle then
    match decode w with
    | .legal i => accept i s
    | .illegalCommand func => rejectCommand func s
  else dropWrite s

/-- The write of operand register A (10 R21, 41 R141). -/
def writeA (w : Word) (s : State) : State := if s.phase = .idle then { s with a := w } else dropWrite s

/-- The write of operand register B (10 R21, 41 R141). -/
def writeB (w : Word) (s : State) : State := if s.phase = .idle then { s with b := w } else dropWrite s

/-- The STATUS write: bit 3 set clears OVR, nothing else happens, busy or not (10 R28). -/
def writeStatus (w : Word) (s : State) : State := if w.getLsbD 3 then { s with ovr := false } else s

/-- `BusWrite(addr, w)` (20 R58): A, B, CMD and STATUS take writes, every other address ignores them. -/
def busWrite (addr : BitVec 8) (w : Word) (s : State) : State :=
  if addr = 0x00#8 then writeA w s
  else if addr = 0x01#8 then writeB w s
  else if addr = 0x02#8 then writeCommand w s
  else if addr = 0x03#8 then writeStatus w s
  else s

/-- One host transaction (30 R80). -/
def transact (t : Transaction) (s : State) : State :=
  if t.we then busWrite t.addr t.wdata s else busRead t.addr s

/-- One round of `WAIT`: read STATUS; while bit 0 of the value read is 1, let the engine take a micro-step and read again
(30 R88; assumption log 16). -/
def poll (s : State) : State :=
  let t := busRead 0x03#8 s
  if t.rdata.getLsbD 0 then { t with events := .micro :: .poll :: t.events } else t

/-- The second half of `MOV`: write the word last read to `dst` (30 R89). -/
def copyLastRead (dst : BitVec 8) (s : State) : State := busWrite dst s.rdata s

/-! ### Reset (70 R240) -/

/-- Reset as an event of a run (70 R240): A, B, STATUS and PHASE as after reset, and R0, R1, X, Y, Z, V, F, KI UNSPEC, that
is free (assumption log 4). The schedule and the word last read are the host's, not the engine's, and stay. -/
def hardReset (s : State) : State :=
  { State.reset with
    r0 := Config.freeWord s.free
    r1 := Config.freeWord (s.free + 1)
    x := Config.freeWord (s.free + 2)
    y := Config.freeWord (s.free + 3)
    z := Config.freeWord (s.free + 4)
    v := Config.freeWord (s.free + 5)
    f := Config.freeWord (s.free + 6)
    ki := Config.freeIndex (s.free + 7)
    free := s.free + 8
    rdata := s.rdata
    events := s.events }

end Sys2Proof.Machine
end

