-- ==== Sys2Proof/Machine/Rotation.lean ====
section
/-! DEFINITION. Rotation mode (spec/42_rotation_mode.md): the argument reduction, `setup`, `iter` and `final` of SINCOS, SIN,
COS and TAN as pure functions on words: the exact bits that R170 asks of a model. -/

namespace Sys2Proof.Machine

open Sys2Proof.Const Sys2Proof.Fixed

/-- TWO_PI, the constant divisor of the reduction, is not zero (93 U4). -/
theorem two_pi_ne_zero : S TWO_PI ≠ 0 := by decide

/-- Step 1 of the reduction: the remainder, shifted into [0, TWO_PI) (42 R160). -/
def reduceTurn (θ : Word) : Word :=
  let t := rem θ TWO_PI two_pi_ne_zero
  if S t < 0 then add t TWO_PI else t

/-- The reduced angle and the signed gain factor (42 R160). -/
def reduce (θ : Word) : Word × Word :=
  let t := reduceTurn θ
  if S HALF_PI < S t ∧ S t < S THREE_HALF_PI then (sub t PI, Rom.gainNegK)
  else if S THREE_HALF_PI ≤ S t then (sub t TWO_PI, Rom.gainK)
  else (t, Rom.gainK)

/-- `setup` of the four rotation-mode commands; it never faults and does not read B (42 R161). -/
def setupRotation (a : Word) : SetupAnswer :=
  .start ⟨ONE, ZERO, (reduce a).1⟩ none (some (reduce a).2)

/-- `iter` of rotation mode at index `k` (42 R163): counter-clockwise exactly when Z > 0. The spec gives k = 0..31 only; above that
`asr` and the table entry are the model's choice (logs 21 and 17), and no run gets there. -/
def rotate (k : Nat) (p : Vec) : Vec :=
  if 0 < S p.z then
    ⟨sub p.x (asr p.y k), add (asr p.x k) p.y, sub p.z (Rom.angle k)⟩
  else
    ⟨add p.x (asr p.y k), sub p.y (asr p.x k), add p.z (Rom.angle k)⟩

/-- The gain-corrected sine, `mul(Y, F)` (42 R165). -/
def sine (p : Vec) (f : Word) : Word := mul p.y f

/-- The gain-corrected cosine, `mul(X, F)` (42 R165). -/
def cosine (p : Vec) (f : Word) : Word := mul p.x f

/-- `final` of SINCOS: R0 the sine, R1 the cosine (42 R166). -/
def finalSincos (p : Vec) (f : Word) : Results := ⟨sine p f, some (cosine p f)⟩

/-- `final` of SIN (42 R167). -/
def finalSin (p : Vec) (f : Word) : Results := ⟨sine p f, none⟩

/-- `final` of COS: the cosine in R0 (42 R168). -/
def finalCos (p : Vec) (f : Word) : Results := ⟨cosine p f, none⟩

/-- The guard of TAN's division excludes a zero divisor (40 R108, 93 U4). -/
theorem divisor_ne_zero_of_eps_lt_abs {c : Word} (h : ¬ S (Fixed.abs c) ≤ S EPS) : S c ≠ 0 := by
  intro hc
  apply h
  have habs : Fixed.abs c = c := by simp only [Fixed.abs, hc, le_refl, if_true]
  rw [habs, hc]
  decide

/-- The tangent from the sine and the cosine (42 R169): saturated when `abs(c) <= EPS`, else the wrapping quotient. -/
def tangent (s c : Word) : Word :=
  if h : S (Fixed.abs c) ≤ S EPS then (if 0 < S s then MAX else MIN)
  else div s c (divisor_ne_zero_of_eps_lt_abs h)

/-- `final` of TAN (42 R169). -/
def finalTan (p : Vec) (f : Word) : Results := ⟨tangent (sine p f) (cosine p f), none⟩

end Sys2Proof.Machine
end

