-- ==== Sys2Proof/Machine/Pipeline.lean ====
section
/-! DEFINITION. The pipeline SETUP, 32 times ITER, FINAL (spec/41_command_lifecycle.md): the three per-command functions
(R146), the micro-steps (R133 to R137), and a command as one function (R138). -/

namespace Sys2Proof.Machine

/-! ### The three per-command functions (41 R146) -/

/-- `setup(func, a, b)`. -/
def setup (i : Instr) (a b : Word) : SetupAnswer :=
  match i with
  | .sincos => setupRotation a
  | .sin => setupRotation a
  | .cos => setupRotation a
  | .tan => setupRotation a
  | .asin => setupAsin a
  | .acos => setupAcos a
  | .atan => setupAtan a
  | .atan2 => setupAtan2 a b

/-- `iter(func, k, x, y, z, v)`. -/
def iter (i : Instr) (k : Nat) (p : Vec) (v : Word) : Vec :=
  match i with
  | .sincos => rotate k p
  | .sin => rotate k p
  | .cos => rotate k p
  | .tan => rotate k p
  | .asin => vectorStep (ccwAsin p v) k p
  | .acos => vectorStep (ccwAcos p v) k p
  | .atan => vectorStep (ccwAtan p v) k p
  | .atan2 => vectorStep (ccwAtan p v) k p

/-- `final(func, x, y, z, f, a)`. -/
def final (i : Instr) (p : Vec) (f a : Word) : Results :=
  match i with
  | .sincos => finalSincos p f
  | .sin => finalSin p f
  | .cos => finalCos p f
  | .tan => finalTan p f
  | .asin => finalAsin p
  | .acos => finalAcos p
  | .atan => finalAtan p
  | .atan2 => finalAtan2 p a

/-- The vector after the ITER steps with index 0, 1, …, n - 1, in this order, from the vector `p` (41 R138). -/
def iterate (i : Instr) (v : Word) : Nat → Vec → Vec
  | 0, p => p
  | n + 1, p => iter i n (iterate i v n p) v

/-- The iteration count, a hard constant (00 R9, 41 R136). -/
def iterations : Nat := 32

/-! ### The micro-steps (41 R133 to R137) -/

/-- The SETUP micro-step (41 R133, R134). -/
def setupStep (s : State) : State :=
  match setup (currentInstr s) (operandA s) (operandB s) with
  | .fault c => raise c s
  | .start p v0 f0 => start p v0 f0 s

/-- The ITER micro-step (41 R135, R136). -/
def iterStep (s : State) : State := advance (iter (currentInstr s) s.ki.toNat (workVec s) s.v) s

/-- The FINAL micro-step (41 R137). -/
def finalStep (s : State) : State := complete (final (currentInstr s) (workVec s) s.f (operandA s)) s

/-- One micro-step of the engine, chosen by PHASE; while IDLE the engine has no step and nothing changes (41 R130, R132). -/
def micro (s : State) : Host.Outcome State Fault Refusal :=
  match s.phase with
  | .idle => .next s
  | .setup => .next (setupStep s)
  | .iter => if s.ki.toNat < iterations then .next (iterStep s) else .fault .iterIndexOutOfRange
  | .final => .next (finalStep s)

/-! ### A command as one function (41 R138) -/

/-- The answer of a command (41 R138). -/
inductive Answer where
  | fault (c : Cause)
  | result (r : Results)
  deriving DecidableEq, Repr

/-- `exec(func, a, b)` of 41 R138: the answer of a command as a function of the function code and the operands alone
(00 R4), to the exact bit, as 42 R170 and 43 R187 ask. Where the command does not write V or F, that argument is a free value, which nothing reads. -/
def answer (i : Instr) (a b : Word) : Answer :=
  match setup i a b with
  | .fault c => .fault c
  | .start p v0 f0 =>
    let v := v0.getD (Config.freeWord 0)
    let f := f0.getD (Config.freeWord 1)
    .result (final i (iterate i v iterations p) f a)

/-- The state after SETUP, the 32 ITER steps and FINAL of command `i`, from the state `s` in which it was accepted, with no
host transaction between (41 R138). -/
def finish (i : Instr) (s : State) : State :=
  match setup i (operandA s) (operandB s) with
  | .fault c => raise c s
  | .start p v0 f0 =>
    let s1 := start p v0 f0 s
    let q := iterate i s1.v iterations p
    complete (final i q s1.f (operandA s)) { s1 with x := q.x, y := q.y, z := q.z, ki := 32#6, phase := .final }

/-- The meaning of a command: the write of its command word to CMD, then the engine alone until PHASE is IDLE (41 R138).
While busy the write is dropped (41 R141). -/
def runCommand (i : Instr) (s : State) : Host.Outcome State Fault Refusal :=
  if s.phase = .idle then .next (finish i (accept i s)) else .next (dropWrite s)

end Sys2Proof.Machine
end

