-- ==== Sys2Proof/Machine/Commands.lean ====
section
/-! DEFINITION. The meaning of each command, one definition each over the shared `runCommand`: `setup`, `iter` and `final`
give a command its own arm, so that one command can be changed without another. -/

namespace Sys2Proof.Machine

/-- SINCOS (42 R166): R0 the sine and R1 the cosine of A. -/
def execSincos (s : State) : Host.Outcome State Fault Refusal := runCommand .sincos s

/-- SIN (42 R167): R0 the sine of A. -/
def execSin (s : State) : Host.Outcome State Fault Refusal := runCommand .sin s

/-- COS (42 R168): R0 the cosine of A. -/
def execCos (s : State) : Host.Outcome State Fault Refusal := runCommand .cos s

/-- TAN (42 R169): R0 the tangent of A, saturated near the asymptotes. -/
def execTan (s : State) : Host.Outcome State Fault Refusal := runCommand .tan s

/-- ASIN (43 R182): R0 and R1 the candidate pair of arcsin(A), or the fault DOMAIN. -/
def execAsin (s : State) : Host.Outcome State Fault Refusal := runCommand .asin s

/-- ACOS (43 R183): R0 and R1 the candidate pair of arccos(A), or the fault DOMAIN. -/
def execAcos (s : State) : Host.Outcome State Fault Refusal := runCommand .acos s

/-- ATAN (43 R184): R0 and R1 the candidate pair of arctan(A). -/
def execAtan (s : State) : Host.Outcome State Fault Refusal := runCommand .atan s

/-- ATAN2 (44 R200): R0 the angle of the vector (B, A), or the fault ZERO_VECTOR. -/
def execAtan2 (s : State) : Host.Outcome State Fault Refusal := runCommand .atan2 s

end Sys2Proof.Machine
end

