-- ==== Sys2Proof/Machine/Dispatch.lean ====
section
/-! DEFINITION. The dispatch from a command to its meaning, one arm each. -/

namespace Sys2Proof.Machine

def exec (i : Instr) (s : State) : Host.Outcome State Fault Refusal :=
  match i with
  | .sincos => Sys2Proof.Machine.execSincos s
  | .sin => Sys2Proof.Machine.execSin s
  | .cos => Sys2Proof.Machine.execCos s
  | .tan => Sys2Proof.Machine.execTan s
  | .asin => Sys2Proof.Machine.execAsin s
  | .acos => Sys2Proof.Machine.execAcos s
  | .atan => Sys2Proof.Machine.execAtan s
  | .atan2 => Sys2Proof.Machine.execAtan2 s

end Sys2Proof.Machine
end

