-- ==== Sys2Proof/Machine/Step.lean ====
section
/-! DEFINITION. One step of the machine: the next event of the schedule, or, when nothing is scheduled, the engine alone. -/

namespace Sys2Proof.Machine

/-- The step (41 R130): the oldest event happens. With no event scheduled the engine takes its micro-step, and while IDLE
nothing changes (70 R249, 60 R227). -/
def step (s : State) : Host.Outcome State Fault Refusal :=
  match s.events with
  | [] => micro s
  | .bus t :: rest => .next (transact t { s with events := rest })
  | .micro :: rest => micro { s with events := rest }
  | .command w :: rest =>
    match decode w with
    | .legal i => exec i { s with events := rest }
    | .illegalCommand _ => .next (writeCommand w { s with events := rest })
  | .poll :: rest => .next (poll { s with events := rest })
  | .copy dst :: rest => .next (copyLastRead dst { s with events := rest })
  | .reset :: rest => .next (hardReset { s with events := rest })

/-- The state in which the next step is the command whose word is the low `nbits` bits of `w`: the command is the oldest
event, and the engine is idle, for a command is taken only while idle (41 R131; assumption log 7). -/
def State.withFetchWord (s : State) (nbits w : Nat) : State :=
  { s with events := .command (BitVec.ofNat 64 (w % 2 ^ nbits)) :: s.events, phase := .idle }

end Sys2Proof.Machine
end

