-- ==== Sys2Proof/Machine/HostProgram.lean ====
section
/-! DEFINITION. The notation for host programs (spec/30_encoding.md R88) and its pseudo-instructions (R89), translated to the
events of the schedule. They add nothing to the engine. -/

namespace Sys2Proof.Machine

/-! ### Names for addresses (30 R88) -/

namespace Addr

def A : BitVec 8 := 0x00#8
def B : BitVec 8 := 0x01#8
def CMD : BitVec 8 := 0x02#8
def STATUS : BitVec 8 := 0x03#8
def R0 : BitVec 8 := 0x04#8
def R1 : BitVec 8 := 0x05#8
def ANGLE60 (k : Nat) : BitVec 8 := BitVec.ofNat 8 (0x40 + 2 * k)
def COS60 (k : Nat) : BitVec 8 := BitVec.ofNat 8 (0x41 + 2 * k)
def K60 : BitVec 8 := 0x80#8

end Addr

/-- `BusWrite(addr, w)` as a transaction (30 R80). -/
def writeTransaction (addr : BitVec 8) (w : Word) : Transaction := ⟨true, addr, w⟩

/-- `BusRead(addr)` as a transaction; `wdata` means nothing in a read (30 R80). -/
def readTransaction (addr : BitVec 8) : Transaction := ⟨false, addr, 0#64⟩

/-- The CMD write of a command (30 R88). -/
def commandTransaction (i : Instr) : Transaction := writeTransaction Addr.CMD (encode i)

/-- A statement of a host program (30 R88). -/
inductive HostStatement where
  | wr (addr : BitVec 8) (lit : Word)
  | issue (i : Instr)
  | cmd (lit : Word)
  | rd (addr : BitVec 8)
  | wait
  | clrovr
  deriving DecidableEq, Repr

/-- The event a statement stands for (30 R88). -/
def HostStatement.event : HostStatement → Event
  | .wr addr lit => .bus (writeTransaction addr lit)
  | .issue i => .bus (commandTransaction i)
  | .cmd lit => .bus (writeTransaction Addr.CMD lit)
  | .rd addr => .bus (readTransaction addr)
  | .wait => .poll
  | .clrovr => .bus (writeTransaction Addr.STATUS 0x0000000000000008#64)

/-- The events of a host program, in its order (20 R65). DESIGN CHOICE (log 22): no micro-step falls between two statements, where
the spec leaves any finite number open (93 U21); another number is written as `micro` events between the statements. -/
def hostProgram (p : List HostStatement) : List Event := p.map HostStatement.event

/-- `SINCOS.i a` and its like: write A, issue the command, wait (30 R89). No micro-step falls between the
statements (log 22). -/
def immediateForm (i : Instr) (a : Word) : List Event := hostProgram [.wr Addr.A a, .issue i, .wait]

/-- `ATAN2.i y, x` (30 R89). No micro-step falls between the statements (log 22). -/
def atan2ImmediateForm (y x : Word) : List Event :=
  hostProgram [.wr Addr.A y, .wr Addr.B x, .issue .atan2, .wait]

/-- `MOV dst, src`: the host reads `src` and writes the word it read to `dst` (30 R89). No micro-step falls between
the two (log 22). -/
def movForm (dst src : BitVec 8) : List Event := [.bus (readTransaction src), .copy dst]

end Sys2Proof.Machine
end

