-- ==== Sys2Proof/Safety.lean ====
section
/-! DEFINITION. What counts as a good state and a good run, in the words the statements use: a step that does not stop, the
invariant of the machine, and the two ways a command can end. -/

namespace Sys2Proof.Machine

/-- The outcome is a next state: no fault and no refusal. -/
def Continues (o : Host.Outcome State Fault Refusal) : Prop := ∃ t, o = .next t

/-! ### The invariant -/

/-- At most one of BUSY, DONE and ERR is 1, and CAUSE is a fault code exactly when ERR is 1 (10 R28, R29). -/
structure State.FlagsWf (s : State) : Prop where
  busy_not_done : s.phase ≠ .idle → s.done = false
  busy_not_err : s.phase ≠ .idle → s.err = false
  done_not_err : s.done = true → s.err = false
  err_iff_cause : s.err = true ↔ s.cause ≠ .none

/-- KI is 0 to 31 in every ITER micro-step and 32 in FINAL (10 R26). -/
structure State.IndexWf (s : State) : Prop where
  iter_index : s.phase = .iter → s.ki.toNat < iterations
  final_index : s.phase = .final → s.ki.toNat = iterations

/-- While a command iterates, the working registers hold what SETUP started from the operands in A and B, after KI steps
(41 R133, R135, R138). -/
def State.PipelineWf (s : State) : Prop :=
  s.phase = .iter ∨ s.phase = .final →
    ∃ p v0 f0, setup (currentInstr s) s.a s.b = .start p v0 f0 ∧
      (∀ w, v0 = some w → s.v = w) ∧ (∀ w, f0 = some w → s.f = w) ∧
      workVec s = iterate (currentInstr s) s.v s.ki.toNat p

/-- The invariant of the machine. -/
structure State.Inv (s : State) : Prop where
  flags : s.FlagsWf
  index : s.IndexWf
  pipeline : s.PipelineWf

/-! ### How a command ends -/

/-- What a whole command leaves as it was, however it ends: the operands, OVR, and what belongs to the host (41 R131,
R134, R137). -/
structure CommandFrame (s t : State) : Prop where
  a_eq : t.a = s.a
  b_eq : t.b = s.b
  ovr_eq : t.ovr = s.ovr
  rdata_eq : t.rdata = s.rdata
  events_eq : t.events = s.events

/-- Command `i` ran to FINAL: its flags (41 R137), its frame, and the register of V and F that its mode does not use
(10 R24, R25). -/
structure CompletedBy (i : Instr) (s t : State) : Prop where
  phase_eq : t.phase = .idle
  done_eq : t.done = true
  err_eq : t.err = false
  cause_eq : t.cause = .none
  func_eq : t.func = i.code
  frame : CommandFrame s t
  v_eq : i.isRotation = true → t.v = s.v
  f_eq : i.isRotation = false → t.f = s.f

/-- Command `i` ended in the fault `c`: the flags of 60 R213, the function code, and nothing else written (41 R134). -/
structure FaultedWith (i : Instr) (c : Cause) (s t : State) : Prop where
  phase_eq : t.phase = .idle
  done_eq : t.done = false
  err_eq : t.err = true
  cause_eq : t.cause = c
  func_eq : t.func = i.code
  frame : CommandFrame s t
  r0_eq : t.r0 = s.r0
  r1_eq : t.r1 = s.r1
  x_eq : t.x = s.x
  y_eq : t.y = s.y
  z_eq : t.z = s.z
  v_eq : t.v = s.v
  f_eq : t.f = s.f
  ki_eq : t.ki = s.ki
  free_eq : t.free = s.free

/-- What one event makes of OVR while the engine is busy: a dropped write to A, B or CMD sets it, a STATUS write with bit 3 set
clears it, and nothing else touches it (41 R141). -/
def ovrAfterEvent (ovr : Bool) (e : Event) : Bool :=
  match e with
  | .bus ⟨true, addr, w⟩ =>
    if addr = Addr.A ∨ addr = Addr.B ∨ addr = Addr.CMD then true
    else if addr = Addr.STATUS ∧ w.getLsbD 3 = true then false
    else ovr
  | _ => ovr

/-- What host transactions, taken in order while the engine is busy, make of OVR (41 R138, R141; log 11). -/
def ovrAfter (ovr : Bool) (es : List Event) : Bool := es.foldl ovrAfterEvent ovr

/-- What a host can read of the outcome of a command: STATUS without OVR, and the result registers where they hold a
defined value (10 R22, R28). -/
structure SameOutcome (s t : State) : Prop where
  phase_eq : s.phase = t.phase
  done_eq : s.done = t.done
  err_eq : s.err = t.err
  cause_eq : s.cause = t.cause
  func_eq : s.func = t.func
  r0_eq : readRegister Addr.R0 s = readRegister Addr.R0 t
  r1_eq : readRegister Addr.R1 s = readRegister Addr.R1 t

end Sys2Proof.Machine
end

