-- ==== Sys2Proof/Certificates/Slice0/Obligations.lean ====
section
/-! DEFINITION. The statements for the provers. Each docstring names the rules of spec/ it formalises. -/

open Sys2Proof Sys2Proof.Machine Sys2Proof.Const

/-! ### Encoding and decoding -/

/-- The eight command words of 30 R84 and four illegal words of 95 §2.6 decode as the spec lists them. -/
def Obligations.TableWordsDecode : Prop :=
  decode 0x0000000000000000#64 = .legal .sincos ∧ decode 0x0000000000000001#64 = .legal .sin ∧
  decode 0x0000000000000002#64 = .legal .cos ∧ decode 0x0000000000000003#64 = .legal .tan ∧
  decode 0x0000000000000004#64 = .legal .asin ∧ decode 0x0000000000000005#64 = .legal .acos ∧
  decode 0x0000000000000006#64 = .legal .atan ∧ decode 0x0000000000000007#64 = .legal .atan2 ∧
  decode 0x0000000000000008#64 = .illegalCommand 0#3 ∧ decode 0x000000000000000C#64 = .illegalCommand 4#3 ∧
  decode 0x8000000000000000#64 = .illegalCommand 0#3 ∧ decode 0xFFFFFFFFFFFFFFFF#64 = .illegalCommand 7#3

/-- Decoding the encoding of a command gives the command. -/
def Obligations.EncodeThenDecode : Prop := ∀ i : Instr, i.wf = true → decode (encode i) = .legal i

/-- 30 R86: a word is legal exactly when bits 63:3 are zero, and it is then the encoding of the command its low bits name;
every other word is illegal, and written to CMD while idle it starts nothing and ends at once with ILLEGAL_CMD. -/
def Obligations.LegalWordsAreTheEncodings : Prop :=
  ∀ w : Word,
    (w.extractLsb' 3 61 = 0#61 →
      decode w = .legal (Instr.ofCode (w.extractLsb' 0 3)) ∧ encode (Instr.ofCode (w.extractLsb' 0 3)) = w) ∧
    (w.extractLsb' 3 61 ≠ 0#61 →
      decode w = .illegalCommand (w.extractLsb' 0 3) ∧ (∀ i, w ≠ encode i) ∧
      ∀ s : State, s.phase = .idle →
        busWrite Addr.CMD w s =
          { s with func := w.extractLsb' 0 3, done := false, err := true, cause := .illegalCmd })

/-! ### The step -/

/-- A step whose oldest event is a legal command word runs that command; and the machine that `withFetchWord` builds runs
the encoded command in its very next step. That a whole command is one event, and that `withFetchWord` makes the engine idle, is
the model's choice (log 7); the spec has the CMD write and the micro-steps, and MicroStepsRefineTheCommand relates the two. -/
def Obligations.StepRunsTheDecodedCommand : Prop :=
  (∀ (s : State) (w : Word) (rest : List Event) (i : Instr),
    s.events = .command w :: rest → decode w = .legal i → step s = exec i { s with events := rest }) ∧
  (∀ (s : State) (i : Instr),
    step (s.withFetchWord 64 (encode i).toNat) = exec i { s with phase := .idle })

/-- What a step does with every other oldest event, and with an empty schedule: the engine alone, and nothing while idle
(41 R130). An illegal command word is the CMD write alone; `poll` is one round of WAIT (30 R88), a STATUS read, and another round
after a micro-step when the word read has BUSY set; `copy` is the second half of MOV (30 R89), a write of the word last read.
The schedule (log 6), the command event (log 7), and the one micro-step between two reads of a WAIT (log 16) are the model's
choices. -/
def Obligations.StepTakesTheOldestEvent : Prop :=
  ∀ (s : State) (rest : List Event),
    (s.events = [] → s.phase = .idle → step s = .next s) ∧
    (s.events = [] → step s = micro s) ∧
    (∀ t, s.events = .bus t :: rest → step s = .next (transact t { s with events := rest })) ∧
    (s.events = .micro :: rest → step s = micro { s with events := rest }) ∧
    (∀ w func, s.events = .command w :: rest → decode w = .illegalCommand func →
      step s = .next (busWrite Addr.CMD w { s with events := rest })) ∧
    (s.events = .poll :: rest → s.phase = .idle →
      step s = .next { s with rdata := statusWord s, events := rest }) ∧
    (s.events = .poll :: rest → s.phase ≠ .idle →
      step s = .next { s with rdata := statusWord s, events := .micro :: .poll :: rest }) ∧
    (∀ dst, s.events = .copy dst :: rest → step s = .next (busWrite dst s.rdata { s with events := rest })) ∧
    (s.events = .reset :: rest → step s = .next (hardReset { s with events := rest }))

/-! ### The commands: where each completes, and its result -/

/-- 42 R166, SINCOS: the command word; R0 the sine and R1 the cosine, for every operand; the values for 0 and for the worked
example; and the same bits for an operand one period higher. -/
def Obligations.SincosCompletes : Prop :=
  ∀ s : State, s.phase = .idle →
    let q := iterate .sincos s.v 32 ⟨ONE, ZERO, (reduce s.a).1⟩
    let f := (reduce s.a).2
    encode .sincos = 0x0000000000000000#64 ∧
    ∃ t, exec .sincos s = .next t ∧ t.r0 = Fixed.mul q.y f ∧ t.r1 = Fixed.mul q.x f ∧ CompletedBy .sincos s t ∧
      (s.a = 0#64 → S t.r0 = 1 ∧ S t.r1 = S ONE + 3) ∧
      (s.a = 0x00000000860A91C1#64 → t.r0 = 0x000000007FFFFFFD#64 ∧ t.r1 = 0x00000000DDB3D743#64) ∧
      (∀ s' : State, s'.phase = .idle → S s'.a = S s.a + S TWO_PI →
        ∃ t', exec .sincos s' = .next t' ∧ t'.r0 = t.r0 ∧ t'.r1 = t.r1)

/-- 42 R167, SIN: the command word; R0 the sine, for every operand, equal to R0 of SINCOS bit for bit; R1 is UNSPEC; and the
worked example. -/
def Obligations.SinCompletes : Prop :=
  ∀ s : State, s.phase = .idle →
    let q := iterate .sin s.v 32 ⟨ONE, ZERO, (reduce s.a).1⟩
    encode .sin = 0x0000000000000001#64 ∧
    ∃ t, exec .sin s = .next t ∧ t.r0 = Fixed.mul q.y (reduce s.a).2 ∧
      readRegister Addr.R1 t = none ∧ CompletedBy .sin s t ∧
      (∀ t', exec .sincos s = .next t' → t.r0 = t'.r0) ∧
      (s.a = 0x00000000860A91C1#64 → t.r0 = 0x000000007FFFFFFD#64)

/-- 42 R168, COS: the command word; the cosine in R0, for every operand, equal to R1 of SINCOS; R1 is UNSPEC; and the worked
example. -/
def Obligations.CosCompletes : Prop :=
  ∀ s : State, s.phase = .idle →
    let q := iterate .cos s.v 32 ⟨ONE, ZERO, (reduce s.a).1⟩
    encode .cos = 0x0000000000000002#64 ∧
    ∃ t, exec .cos s = .next t ∧ t.r0 = Fixed.mul q.x (reduce s.a).2 ∧
      readRegister Addr.R1 t = none ∧ CompletedBy .cos s t ∧
      (∀ t', exec .sincos s = .next t' → t.r0 = t'.r1) ∧
      (s.a = 0x00000000860A91C1#64 → t.r0 = 0x00000000DDB3D743#64)

/-- 42 R169, TAN: MAX or MIN by the sign of the sine when |cosine| is at most EPS = 43 raw, else the truncated, wrapping
quotient; for every operand; R1 is UNSPEC. -/
def Obligations.TanCompletes : Prop :=
  ∀ s : State, s.phase = .idle →
    let q := iterate .tan s.v 32 ⟨ONE, ZERO, (reduce s.a).1⟩
    let sn := Fixed.mul q.y (reduce s.a).2
    let cs := Fixed.mul q.x (reduce s.a).2
    ∃ t, exec .tan s = .next t ∧
      (S (Fixed.abs cs) ≤ 43 → 0 < S sn → t.r0 = MAX) ∧
      (S (Fixed.abs cs) ≤ 43 → ¬ 0 < S sn → t.r0 = MIN) ∧
      (43 < S (Fixed.abs cs) → t.r0 = W (Int.tdiv (S sn * 2 ^ 32) (S cs))) ∧
      readRegister Addr.R1 t = none ∧ CompletedBy .tan s t

/-- 43 R182, ASIN: completes for every operand in [-1, 1], ends inside, with the candidate pair (z, π - z) or (-π - z, z). -/
def Obligations.AsinCompletes : Prop :=
  ∀ s : State, s.phase = .idle → -4294967296 ≤ S s.a → S s.a ≤ 4294967296 →
    let z := (iterate .asin s.a 32 ⟨ONE, ZERO, ZERO⟩).z
    ∃ t, exec .asin s = .next t ∧
      (0 < S z → t.r0 = z ∧ t.r1 = Fixed.sub PI z) ∧
      (¬ 0 < S z → t.r0 = Fixed.sub NEG_PI z ∧ t.r1 = z) ∧
      t.v = s.a ∧ CompletedBy .asin s t

/-- 43 R183, ACOS: completes for every operand in [-1, 1], ends inside, with the candidate pair (-z, z). -/
def Obligations.AcosCompletes : Prop :=
  ∀ s : State, s.phase = .idle → -4294967296 ≤ S s.a → S s.a ≤ 4294967296 →
    let z := (iterate .acos s.a 32 ⟨ZERO, ONE, HALF_PI⟩).z
    ∃ t, exec .acos s = .next t ∧ t.r0 = Fixed.neg z ∧ t.r1 = z ∧ t.v = s.a ∧ CompletedBy .acos s t

/-- 43 R184, ATAN: completes for every operand, with the candidate pair (z - π, z) or (z, z + π). -/
def Obligations.AtanCompletes : Prop :=
  ∀ s : State, s.phase = .idle →
    let z := (iterate .atan s.a 32 ⟨ONE, ZERO, ZERO⟩).z
    ∃ t, exec .atan s = .next t ∧
      (0 < S z → t.r0 = Fixed.sub z PI ∧ t.r1 = z) ∧
      (¬ 0 < S z → t.r0 = z ∧ t.r1 = Fixed.add z PI) ∧
      t.v = s.a ∧ CompletedBy .atan s t

/-- 44 R200, ATAN2: completes for every pair of operands but the zero vector; the ratio is MAX for a zero denominator, else
the truncated, wrapping quotient; the first candidate when y is negative, else the second; R1 is UNSPEC. -/
def Obligations.Atan2Completes : Prop :=
  ∀ s : State, s.phase = .idle → ¬ (s.a = 0#64 ∧ s.b = 0#64) →
    let r := if s.b = 0#64 then MAX else W (Int.tdiv (S s.a * 2 ^ 32) (S s.b))
    let z := (iterate .atan2 r 32 ⟨ONE, ZERO, ZERO⟩).z
    ∃ t, exec .atan2 s = .next t ∧
      (S s.a < 0 → t.r0 = if 0 < S z then Fixed.sub z PI else z) ∧
      (¬ S s.a < 0 → t.r0 = if 0 < S z then z else Fixed.add z PI) ∧
      readRegister Addr.R1 t = none ∧ t.v = r ∧ CompletedBy .atan2 s t

/-- 43 R182, R183, 44 R200 and 60 R211: ASIN and ACOS of an operand outside [-1, 1] end in the fault DOMAIN, and ATAN2 of the
zero vector in the fault ZERO_VECTOR; nothing but the flags and FUNC is written. -/
def Obligations.FaultingOperands : Prop :=
  ∀ s : State, s.phase = .idle →
    (S s.a < -4294967296 ∨ 4294967296 < S s.a →
      (∃ t, exec .asin s = .next t ∧ FaultedWith .asin .domain s t) ∧
      (∃ t, exec .acos s = .next t ∧ FaultedWith .acos .domain s t)) ∧
    (s.a = 0#64 → s.b = 0#64 → ∃ t, exec .atan2 s = .next t ∧ FaultedWith .atan2 .zeroVector s t)

/-- 41 R141: while busy a command word is dropped and sets OVR; nothing else changes. -/
def Obligations.CommandWhileBusyIsDropped : Prop :=
  ∀ (i : Instr) (s : State), s.phase ≠ .idle → exec i s = .next { s with ovr := true }

/-! ### The algorithm -/

/-- 42 R163: the rotation step of the four rotation-mode commands, from the pre-step x and y, clockwise when z is 0. The rule is
for k = 0..31; for a larger k the floored shift and the table entry are the model's choice (logs 21 and 17). -/
def Obligations.RotationStep : Prop :=
  ∀ (i : Instr) (k : Nat) (p : Vec) (v : Word), i.isRotation = true →
    (0 < S p.z → iter i k p v =
      ⟨W (S p.x - S (W (S p.y / 2 ^ k))), W (S (W (S p.x / 2 ^ k)) + S p.y), W (S p.z - S (Rom.angle k))⟩) ∧
    (S p.z ≤ 0 → iter i k p v =
      ⟨W (S p.x + S (W (S p.y / 2 ^ k))), W (S p.y - S (W (S p.x / 2 ^ k))), W (S p.z + S (Rom.angle k))⟩)

/-- 43 R181 with the step conditions of R182, R183 and R184: the vectoring step of ASIN, ACOS, ATAN and ATAN2; and what its
multiply does for the indices 16 to 31, where it is by ONE - 1 or by ONE. The rule is for k = 0..31; for a larger k the floored
shift and the table entries are the model's choice (logs 21 and 17). -/
def Obligations.VectoringStep : Prop :=
  (∀ (i : Instr) (k : Nat) (p : Vec) (v : Word), i.isRotation = false →
    let ccw : Prop :=
      match i with
      | .asin => (0 < S p.x ∧ S p.y < S v) ∨ (S p.x < 0 ∧ S v < S p.y)
      | .acos => (0 < S p.y ∧ S v < S p.x) ∨ (S p.y < 0 ∧ S p.x < S v)
      | _ => S p.y < S (Fixed.smul v p.x)
    (ccw → iter i k p v =
      ⟨Fixed.mul (Fixed.sub p.x (Fixed.asr p.y k)) (Rom.cos k),
       Fixed.mul (Fixed.add p.y (Fixed.asr p.x k)) (Rom.cos k), Fixed.add p.z (Rom.angle k)⟩) ∧
    (¬ ccw → iter i k p v =
      ⟨Fixed.mul (Fixed.add p.x (Fixed.asr p.y k)) (Rom.cos k),
       Fixed.mul (Fixed.sub p.y (Fixed.asr p.x k)) (Rom.cos k), Fixed.sub p.z (Rom.angle k)⟩)) ∧
  (∀ t : Word, Fixed.mul t (Rom.cos 30) = t ∧ Fixed.mul t (Rom.cos 31) = t ∧
    ∀ k, 16 ≤ k → k ≤ 29 →
      (0 < S t → S t ≤ 4294967296 → S (Fixed.mul t (Rom.cos k)) = S t - 1) ∧
      (-4294967296 < S t → S t ≤ 0 → S (Fixed.mul t (Rom.cos k)) = S t) ∧
      (4294967296 < S t → S t ≤ 2 * 4294967296 → S (Fixed.mul t (Rom.cos k)) = S t - 2))

/-- 42 R160: step 1 of the reduction is the remainder of the operand in [0, TWO_PI); the middle interval is open at both
ends and is reflected by PI with the gain negated, the upper one is wrapped by TWO_PI, the lower one is left alone. The
results are exact integers: no operation overflows. -/
def Obligations.ReductionByIntervals : Prop :=
  ∀ θ : Word,
    let t := S θ % 26986075410
    S (reduceTurn θ) = t ∧
    (t ≤ 6746518852 → S (reduce θ).1 = t ∧ (reduce θ).2 = 0x000000009B74EDA8#64) ∧
    (6746518852 < t → t < 20239556557 →
      S (reduce θ).1 = t - 13493037705 ∧ (reduce θ).2 = 0xFFFFFFFF648B1258#64) ∧
    (20239556557 ≤ t → S (reduce θ).1 = t - 26986075410 ∧ (reduce θ).2 = 0x000000009B74EDA8#64)

/-- 42 R162: the range of the reduced angle for every operand, the two values of the factor, and the table of boundary
values. -/
def Obligations.ReducedAngleRange : Prop :=
  (∀ θ : Word, -6746518853 ≤ S (reduce θ).1 ∧ S (reduce θ).1 ≤ 6746518852 ∧
    ((reduce θ).2 = 0x000000009B74EDA8#64 ∨ (reduce θ).2 = 0xFFFFFFFF648B1258#64)) ∧
  (∀ row ∈ ([(0x0000000000000000#64, 0, 0, false), (0x0000000000000001#64, 1, 1, false),
      (0xFFFFFFFFFFFFFFFF#64, 26986075409, -1, false), (0x00000000860A91C1#64, 2248839617, 2248839617, false),
      (0x00000001921FB544#64, 6746518852, 6746518852, false), (0x00000001921FB545#64, 6746518853, -6746518852, true),
      (0x00000003243F6A89#64, 13493037705, 0, true), (0x00000004B65F1FCC#64, 20239556556, 6746518851, true),
      (0x00000004B65F1FCD#64, 20239556557, -6746518853, false), (0x00000006487ED511#64, 26986075409, -1, false),
      (0x00000006487ED512#64, 0, 0, false), (0xFFFFFFF9B7812AEE#64, 0, 0, false),
      (0xFFFFFFFE6DE04ABC#64, 20239556558, -6746518852, false),
      (0x7FFFFFFFFFFFFFFF#64, 20944119637, -6041955773, false),
      (0x8000000000000000#64, 6041955772, 6041955772, false)] : List (Word × Int × Int × Bool)),
    S (reduceTurn row.1) = row.2.1 ∧ S (reduce row.1).1 = row.2.2.1 ∧
      (reduce row.1).2 = if row.2.2.2 then Rom.gainNegK else Rom.gainK)

/-- 42 R171: the four rotation-mode commands are exactly periodic in the raw operand with period TWO_PI: operands that
differ by a whole number of periods have the same answer. -/
def Obligations.RotationIsExactlyPeriodic : Prop :=
  ∀ (i : Instr) (θ1 θ2 b : Word) (n : Int), i.isRotation = true → S θ2 = S θ1 + n * 26986075410 →
    answer i θ1 b = answer i θ2 b

/-- 42 R164, first part: before ITER number k, |Z| is at most the sum of the remaining table angles plus 9, so that after
the 32 steps |Z| is at most 9, for every operand. -/
def Obligations.RotationResidualIsSmall : Prop :=
  ∀ (i : Instr) (θ v : Word) (k : Nat), i.isRotation = true → k ≤ 32 →
    |S (iterate i v k ⟨ONE, ZERO, (reduce θ).1⟩).z| ≤ (((List.range 32).drop k).map fun j => S (Rom.angle j)).sum + 9

/-- 42 R164, second part: |X| and |Y| never exceed 1.65 · ONE in rotation mode, for every operand. -/
def Obligations.RotationVectorStaysBounded : Prop :=
  ∀ (i : Instr) (θ v : Word) (k : Nat), i.isRotation = true → k ≤ 32 →
    100 * |S (iterate i v k ⟨ONE, ZERO, (reduce θ).1⟩).x| ≤ 165 * 4294967296 ∧
    100 * |S (iterate i v k ⟨ONE, ZERO, (reduce θ).1⟩).y| ≤ 165 * 4294967296

/-- 42 R169 and R164: for every operand the sine and the cosine are below 1.01 · ONE, and where TAN divides, the exact
quotient is below 2^59 in magnitude, so that the division never wraps. -/
def Obligations.TangentQuotientNeverWraps : Prop :=
  ∀ (θ v : Word),
    let q := iterate .tan v 32 ⟨ONE, ZERO, (reduce θ).1⟩
    let sn := sine q (reduce θ).2
    let cs := cosine q (reduce θ).2
    100 * |S sn| < 101 * 4294967296 ∧ 100 * |S cs| < 101 * 4294967296 ∧
    (43 < S (Fixed.abs cs) → |Int.tdiv (S sn * 2 ^ 32) (S cs)| < 2 ^ 59)

/-- 43 R186, the angle: in vectoring mode |Z| stays at or below HALF_PI plus the sum of all table angles, for every operand
and target, so that no addition to Z wraps. -/
def Obligations.VectoringAngleStaysBounded : Prop :=
  ∀ (i : Instr) (a b : Word) (p : Vec) (w : Word) (f0 : Option Word) (k : Nat), k ≤ 32 →
    setup i a b = .start p (some w) f0 → |S (iterate i w k p).z| ≤ 14233877858

/-- 43 R186, the vector, in a weaker form than the rule's sentence (which says ONE): in vectoring mode |X| and |Y| stay within
128 raw units of ONE for every operand and target, so that no operation of R181 wraps (log 20). -/
def Obligations.VectoringVectorStaysBounded : Prop :=
  ∀ (i : Instr) (a b : Word) (p : Vec) (w : Word) (f0 : Option Word) (k : Nat), k ≤ 32 →
    setup i a b = .start p (some w) f0 →
    |S (iterate i w k p).x| ≤ 4294967296 + 128 ∧ |S (iterate i w k p).y| ≤ 4294967296 + 128

/-- 42 R167, R168: on the same operand, R0 of SIN is R0 of SINCOS and R0 of COS is R1 of SINCOS, bit for bit. -/
def Obligations.SinAndCosAreTheComponentsOfSincos : Prop :=
  ∀ a b : Word, ∃ s c : Word,
    answer .sincos a b = .result ⟨s, some c⟩ ∧ answer .sin a b = .result ⟨s, none⟩ ∧
    answer .cos a b = .result ⟨c, none⟩

/-- 44 R200: ATAN2 selects one of the two candidates that ATAN gives for its ratio, the first when y is negative; with a
zero denominator the ratio is MAX. -/
def Obligations.Atan2SelectsAnAtanCandidate : Prop :=
  ∀ a b : Word, ¬ (a = 0#64 ∧ b = 0#64) →
    ∃ c0 c1 : Word, answer .atan (if b = 0#64 then MAX else W (Int.tdiv (S a * 2 ^ 32) (S b))) 0#64 =
        .result ⟨c0, some c1⟩ ∧
      answer .atan2 a b = .result ⟨if S a < 0 then c0 else c1, none⟩

/-! ### The primitives -/

/-- 40 R105 and R113: `asr` by 0 to 31 and `narrow` round toward minus infinity and do not overflow. -/
def Obligations.ShiftAndNarrowRoundDown : Prop :=
  (∀ (a : Word) (k : Nat), k ≤ 31 →
    S (Fixed.asr a k) * 2 ^ k ≤ S a ∧ S a < (S (Fixed.asr a k) + 1) * 2 ^ k) ∧
  (∀ t : Word, S (Fixed.narrow t) * 2 ^ 28 ≤ S t ∧ S t < (S (Fixed.narrow t) + 1) * 2 ^ 28)

/-- 40 R101 to R104: the adders, negation and magnitude are the wrapping arithmetic of 64-bit words; MIN is its own negation
and magnitude. -/
def Obligations.AddersAreWordArithmetic : Prop :=
  ∀ a b : Word, Fixed.add a b = a + b ∧ Fixed.sub a b = a - b ∧ Fixed.neg a = -a ∧
    Fixed.abs a = (if a.msb then -a else a) ∧ Fixed.neg MIN = MIN ∧ Fixed.abs MIN = MIN

/-- 40 R106 in its hardware terms: the exact signed 128-bit product, shifted right arithmetically by 32, its low 64 bits;
commutative; ONE and 0 as factors. -/
def Obligations.MultiplierInHardwareTerms : Prop :=
  ∀ a b : Word,
    Fixed.mul a b = ((a.signExtend 128 * b.signExtend 128).sshiftRight 32).setWidth 64 ∧
    Fixed.mul a b = Fixed.mul b a ∧ Fixed.mul a ONE = a ∧ Fixed.mul a 0#64 = 0#64

/-- 40 R108 in its hardware terms: the dividend shifted left by 32, divided with sign and truncation, the low 64 bits; and the
magnitude and sign of the exact quotient (40 R115). -/
def Obligations.DividerInHardwareTerms : Prop :=
  ∀ (a b : Word) (h : S b ≠ 0),
    let q := Int.tdiv (S a * 2 ^ 32) (S b)
    Fixed.div a b h = ((a.signExtend 128 <<< 32).sdiv (b.signExtend 128)).setWidth 64 ∧ Fixed.div a b h = W q ∧
    |q| = |S a| * 2 ^ 32 / |S b| ∧ (q < 0 ↔ (S a < 0 ∧ 0 < S b ∨ 0 < S a ∧ S b < 0) ∧ q ≠ 0)

/-- 40 R107: the saturating product is the clamped floored product as an integer; where the floored product is in range it
is `mul`. -/
def Obligations.SaturatingMultiplyClamps : Prop :=
  ∀ a b : Word,
    let n := S a * S b / 2 ^ 32
    (n < -2 ^ 63 → Fixed.smul a b = MIN) ∧ (2 ^ 63 - 1 < n → Fixed.smul a b = MAX) ∧
    (-2 ^ 63 ≤ n → n ≤ 2 ^ 63 - 1 → S (Fixed.smul a b) = n ∧ Fixed.smul a b = Fixed.mul a b)

/-- 40 R115, third item, the part 'exactly when' read as 'only when': the two products agree only where the floored product is
in range (log 20). It fails: a floored product of 3 · 2^63 - 1 wraps to MAX, which is also what it saturates to. -/
def Obligations.MultipliesAgreeOnlyInRange : Prop :=
  ∀ a b : Word, Fixed.mul a b = Fixed.smul a b →
    -2 ^ 63 ≤ S a * S b / 2 ^ 32 ∧ S a * S b / 2 ^ 32 ≤ 2 ^ 63 - 1

/-- 40 R109: the remainder satisfies the division identity as integers, is smaller than the divisor in magnitude, and is
zero or has the sign of the dividend. -/
def Obligations.RemainderHasTheSignOfTheDividend : Prop :=
  ∀ (a b : Word) (h : S b ≠ 0),
    S (Fixed.rem a b h) = S a - Int.tdiv (S a) (S b) * S b ∧ |S (Fixed.rem a b h)| < |S b| ∧
    (0 ≤ S a → 0 ≤ S (Fixed.rem a b h)) ∧ (S a ≤ 0 → S (Fixed.rem a b h) ≤ 0)

/-- 20 R55: the properties of the narrowed table. -/
def Obligations.NarrowedTableProperties : Prop :=
  (∀ k < 31, S (Rom.angle (k + 1)) < S (Rom.angle k) ∧ 0 < S (Rom.angle (k + 1))) ∧
  ((List.range 32).map fun j => S (Rom.angle j)).sum = 7487359006 ∧ (6746518852 : Int) < 7487359006 ∧
  (∀ k < 31, S (Rom.angle k) ≤ (((List.range 32).drop (k + 1)).map fun j => S (Rom.angle j)).sum + 9) ∧
  (∀ k < 31, k ≤ 8 → S (Rom.angle k) < (((List.range 32).drop (k + 1)).map fun j => S (Rom.angle j)).sum) ∧
  (∀ k < 31, 9 ≤ k →
    1 ≤ S (Rom.angle k) - (((List.range 32).drop (k + 1)).map fun j => S (Rom.angle j)).sum ∧
    S (Rom.angle k) - (((List.range 32).drop (k + 1)).map fun j => S (Rom.angle j)).sum ≤ 9) ∧
  (∀ k < 32, 0 < S (Rom.cos k) ∧ S (Rom.cos k) ≤ 4294967296) ∧
  (∀ k < 30, 16 ≤ k → S (Rom.cos k) = 4294967295) ∧
  S (Rom.cos 30) = 4294967296 ∧ S (Rom.cos 31) = 4294967296

/-! ### The host register space -/

/-- 20 R58: the host address map. What a read of every word address returns (R0 and R1 are UNSPEC outside their validity,
10 R22; the ROM window gives the literals of 20 R51 and R52, written out here), that a read delivers that word and changes
nothing else, and what a write does, idle and busy. -/
def Obligations.HostAddressMap : Prop :=
  ∀ s : State,
    readRegister 0x00#8 s = some s.a ∧ readRegister 0x01#8 s = some s.b ∧ readRegister 0x02#8 s = some 0#64 ∧
    readRegister 0x03#8 s = some (statusWord s) ∧
    (s.done = true → readRegister 0x04#8 s = some s.r0) ∧ (s.done = false → readRegister 0x04#8 s = none) ∧
    (s.done = true → s.func = 0#3 ∨ s.func = 4#3 ∨ s.func = 5#3 ∨ s.func = 6#3 →
      readRegister 0x05#8 s = some s.r1) ∧
    (s.done = false ∨ s.func = 1#3 ∨ s.func = 2#3 ∨ s.func = 3#3 ∨ s.func = 7#3 → readRegister 0x05#8 s = none) ∧
    (∀ n : Nat, (0x06 ≤ n ∧ n ≤ 0x3F) ∨ (0x81 ≤ n ∧ n ≤ 0xFF) → readRegister (BitVec.ofNat 8 n) s = some 0#64) ∧
    (∀ k < 32, readRegister (BitVec.ofNat 8 (0x40 + 2 * k)) s = ([
        0x0C90FDAA22168C23#64, 0x076B19C1586ED3DA#64, 0x03EB6EBF25901BAC#64, 0x01FD5BA9AAC2F6DC#64,
        0x00FFAADDB967EF4E#64, 0x007FF556EEA5D893#64, 0x003FFEAAB776E535#64, 0x001FFFD555BBBA97#64,
        0x000FFFFAAAADDDDC#64, 0x0007FFFF55556EEF#64, 0x0003FFFFEAAAAB77#64, 0x0001FFFFFD55555C#64,
        0x0000FFFFFFAAAAAB#64, 0x00007FFFFFF55555#64, 0x00003FFFFFFEAAAB#64, 0x00001FFFFFFFD555#64,
        0x00000FFFFFFFFAAB#64, 0x000007FFFFFFFF55#64, 0x000003FFFFFFFFEB#64, 0x000001FFFFFFFFFD#64,
        0x0000010000000000#64, 0x0000008000000000#64, 0x0000004000000000#64, 0x0000002000000000#64,
        0x0000001000000000#64, 0x0000000800000000#64, 0x0000000400000000#64, 0x0000000200000000#64,
        0x0000000100000000#64, 0x0000000080000000#64, 0x0000000040000000#64, 0x0000000020000000#64] : List Word)[k]? ∧
      readRegister (BitVec.ofNat 8 (0x41 + 2 * k)) s = ([
        0x0B504F333F9DE648#64, 0x0E4F92E2DFF6EC9B#64, 0x0F85B42469578E14#64, 0x0FE05EC45078EC99#64,
        0x0FF805FB045C1399#64, 0x0FFE005FEC045F04#64, 0x0FFF8005FFB00460#64, 0x0FFFE0005FFEC004#64,
        0x0FFFF80005FFFB00#64, 0x0FFFFE00005FFFEC#64, 0x0FFFFF8000060000#64, 0x0FFFFFE000006000#64,
        0x0FFFFFF800000600#64, 0x0FFFFFFE00000060#64, 0x0FFFFFFF80000006#64, 0x0FFFFFFFE0000000#64,
        0x0FFFFFFFF8000000#64, 0x0FFFFFFFFE000000#64, 0x0FFFFFFFFF800000#64, 0x0FFFFFFFFFE00000#64,
        0x0FFFFFFFFFF80000#64, 0x0FFFFFFFFFFE0000#64, 0x0FFFFFFFFFFF8000#64, 0x0FFFFFFFFFFFE000#64,
        0x0FFFFFFFFFFFF800#64, 0x0FFFFFFFFFFFFE00#64, 0x0FFFFFFFFFFFFF80#64, 0x0FFFFFFFFFFFFFE0#64,
        0x0FFFFFFFFFFFFFF8#64, 0x0FFFFFFFFFFFFFFE#64, 0x1000000000000000#64, 0x1000000000000000#64] : List Word)[k]?) ∧
    readRegister 0x80#8 s = some 0x09B74EDA8435E5A7#64 ∧
    (∀ addr w, readRegister addr s = some w → busRead addr s = { s with rdata := w }) ∧
    (∀ w : Word,
      (s.phase = .idle → busWrite 0x00#8 w s = { s with a := w } ∧ busWrite 0x01#8 w s = { s with b := w } ∧
        busWrite 0x02#8 w s =
          (match decode w with | .legal i => accept i s | .illegalCommand func => rejectCommand func s)) ∧
      (s.phase ≠ .idle → busWrite 0x00#8 w s = { s with ovr := true } ∧ busWrite 0x01#8 w s = { s with ovr := true } ∧
        busWrite 0x02#8 w s = { s with ovr := true }) ∧
      (w.getLsbD 3 = true → busWrite 0x03#8 w s = { s with ovr := false }) ∧
      (w.getLsbD 3 = false → busWrite 0x03#8 w s = s) ∧
      (∀ n : Nat, 0x04 ≤ n → n ≤ 0xFF → busWrite (BitVec.ofNat 8 n) w s = s))

/-- 41 R141: host writes while busy, at every address; and OVR is sticky: of all that a step can be, only a STATUS write with
bit 3 set (by the host directly, or by the second half of a MOV) or reset clears it. -/
def Obligations.WritesWhileBusy : Prop :=
  (∀ (s : State) (w : Word), s.phase ≠ .idle →
    busWrite 0x00#8 w s = { s with ovr := true } ∧ busWrite 0x01#8 w s = { s with ovr := true } ∧
    busWrite 0x02#8 w s = { s with ovr := true } ∧
    (w.getLsbD 3 = true → busWrite 0x03#8 w s = { s with ovr := false }) ∧
    (w.getLsbD 3 = false → busWrite 0x03#8 w s = s) ∧
    (∀ n : Nat, 0x04 ≤ n → n ≤ 0xFF → busWrite (BitVec.ofNat 8 n) w s = s)) ∧
  (∀ s t : State, s.ovr = true → step s = .next t → t.ovr = false →
    ∃ (e : Event) (rest : List Event), s.events = e :: rest ∧
      (e = .reset ∨ (∃ w, e = .bus ⟨true, 0x03#8, w⟩ ∧ w.getLsbD 3 = true) ∨
        (e = .copy 0x03#8 ∧ s.rdata.getLsbD 3 = true)))

/-- 41 R140: host reads while busy: STATUS shows BUSY and the running function with DONE, ERR and CAUSE zero and OVR as it
stands, A and B the operands, R0 and R1 UNSPEC, CMD zero, the ROM window its literals. -/
def Obligations.ReadsWhileBusy : Prop :=
  ∀ s : State, s.Inv → s.phase ≠ .idle →
    (busRead Addr.STATUS s).rdata =
      1#64 ||| (if s.ovr then 8#64 else 0#64) ||| s.func.setWidth 64 <<< 8 ∧
    (busRead Addr.A s).rdata = s.a ∧ (busRead Addr.B s).rdata = s.b ∧ (busRead Addr.CMD s).rdata = 0#64 ∧
    readRegister Addr.R0 s = none ∧ readRegister Addr.R1 s = none ∧
    (∀ k < 32, (busRead (Addr.ANGLE60 k) s).rdata = Rom.angle60 k ∧ (busRead (Addr.COS60 k) s).rdata = Rom.cos60 k) ∧
    (busRead Addr.K60 s).rdata = Rom.k60

/-- 10 R28: every field of the STATUS word and the reserved bits; a STATUS write clears OVR when bit 3 is set and changes
nothing else, busy or not; no read, of STATUS or of any other address, changes any state of the engine (the answer and
the model's counter of free values belong to the model); CAUSE is 0 while ERR is 0, in every state that meets the invariant;
and STATUS is all zero at reset. The three wires of 10 R31 are STATUS bits. -/
def Obligations.StatusWordFields : Prop :=
  ∀ s : State,
    (statusWord s).getLsbD 0 = decide (s.phase ≠ .idle) ∧ (statusWord s).getLsbD 1 = s.done ∧
    (statusWord s).getLsbD 2 = s.err ∧ (statusWord s).getLsbD 3 = s.ovr ∧
    (statusWord s).extractLsb' 4 4 = s.cause.code ∧ (statusWord s).extractLsb' 8 3 = s.func ∧
    (statusWord s).extractLsb' 11 53 = 0#53 ∧
    busyWire s = (statusWord s).getLsbD 0 ∧ doneWire s = (statusWord s).getLsbD 1 ∧
    errWire s = (statusWord s).getLsbD 2 ∧
    (∀ w : Word, busWrite 0x03#8 w s = if w.getLsbD 3 then { s with ovr := false } else s) ∧
    (∀ addr : BitVec 8, ∃ (w : Word) (n : Nat), busRead addr s = { s with rdata := w, free := n }) ∧
    (s.Inv → s.err = false → (statusWord s).extractLsb' 4 4 = 0#4) ∧ statusWord State.reset = 0#64

/-- 70 R246: from the end of a command until the next CMD write taken, a whole command, or reset, every event leaves R0, R1,
DONE, ERR, CAUSE and FUNC, and their validity, as they are; and the next CMD write makes R0 and R1 UNSPEC at once. -/
def Obligations.ResultsLastUntilTheNextCommand : Prop :=
  (∀ (s t : State) (e : Event) (rest : List Event),
    s.phase = .idle → s.events = e :: rest → step s = .next t →
    (∀ w, e ≠ .command w) → e ≠ .reset → e ≠ .copy Addr.CMD →
    (∀ tr : Transaction, e = .bus tr → tr.we = true → tr.addr ≠ Addr.CMD) →
    t.r0 = s.r0 ∧ t.r1 = s.r1 ∧ t.done = s.done ∧ t.err = s.err ∧ t.cause = s.cause ∧ t.func = s.func ∧
    t.phase = .idle ∧ readRegister Addr.R0 t = readRegister Addr.R0 s ∧ readRegister Addr.R1 t = readRegister Addr.R1 s) ∧
  (∀ (s : State) (w : Word), s.phase = .idle →
    readRegister Addr.R0 (busWrite Addr.CMD w s) = none ∧ readRegister Addr.R1 (busWrite Addr.CMD w s) = none)

/-! ### The life of a command -/

/-- 41 R131: the CMD write while idle, legal and illegal, as one atomic step that writes nothing else, and the same write while
busy, which is dropped. -/
def Obligations.CommandDecode : Prop :=
  ∀ (s : State) (w : Word),
    (s.phase = .idle → w.extractLsb' 3 61 = 0#61 →
      transact ⟨true, 0x02#8, w⟩ s =
        { s with func := w.extractLsb' 0 3, done := false, err := false, cause := .none, phase := .setup }) ∧
    (s.phase = .idle → w.extractLsb' 3 61 ≠ 0#61 →
      transact ⟨true, 0x02#8, w⟩ s =
        { s with func := w.extractLsb' 0 3, done := false, err := true, cause := .illegalCmd, phase := .idle }) ∧
    (s.phase ≠ .idle → transact ⟨true, 0x02#8, w⟩ s = { s with ovr := true })

/-- 41 R133 and R134: the SETUP micro-step, with and without a fault, as one atomic step that writes nothing else. F is written
for the rotation-mode commands and V for the vectoring-mode commands. After a fault R0 and R1 are UNSPEC; the only faults are
DOMAIN for ASIN and ACOS and ZERO_VECTOR for ATAN2. -/
def Obligations.SetupMicroStep : Prop :=
  ∀ s : State, s.phase = .setup →
    (∀ p v0 f0, setup (currentInstr s) s.a s.b = .start p v0 f0 →
      micro s = .next { s with x := p.x, y := p.y, z := p.z, v := v0.getD s.v, f := f0.getD s.f, ki := 0#6, phase := .iter } ∧
      ((currentInstr s).isRotation = true ↔ f0.isSome = true) ∧ ((currentInstr s).isRotation = false ↔ v0.isSome = true)) ∧
    (∀ c, setup (currentInstr s) s.a s.b = .fault c →
      ∃ t, micro s = .next t ∧ t = { s with err := true, cause := c, done := false, phase := .idle } ∧
        readRegister Addr.R0 t = none ∧ readRegister Addr.R1 t = none ∧
        ((c = .domain ∧ (s.func = 4#3 ∨ s.func = 5#3)) ∨ (c = .zeroVector ∧ s.func = 7#3)))

/-- 41 R135 and R136: the ITER micro-step writes X, Y, Z, KI and PHASE and nothing else; with KI at 31 it leads to FINAL with
KI at 32. -/
def Obligations.IterMicroStep : Prop :=
  ∀ s : State, s.phase = .iter → s.ki.toNat < 32 →
    let q := iter (currentInstr s) s.ki.toNat ⟨s.x, s.y, s.z⟩ s.v
    (s.ki = 31#6 → micro s = .next { s with x := q.x, y := q.y, z := q.z, ki := 32#6, phase := .final }) ∧
    (s.ki ≠ 31#6 → micro s = .next { s with x := q.x, y := q.y, z := q.z, ki := s.ki + 1#6 })

/-- 41 R137: the FINAL micro-step writes R0, R1, DONE, ERR, CAUSE and PHASE together and nothing else; it never stops; R1 is
UNSPEC after SIN, COS, TAN and ATAN2. -/
def Obligations.FinalMicroStep : Prop :=
  ∀ s : State, s.phase = .final →
    let r := final (currentInstr s) ⟨s.x, s.y, s.z⟩ s.f s.a
    ∃ w n, micro s = .next { s with
        r0 := r.r0, r1 := w, free := n, done := true, err := false, cause := .none, phase := .idle } ∧
      (∀ w', r.r1 = some w' → w = w') ∧
      (r.r1 = none ↔ s.func = 1#3 ∨ s.func = 2#3 ∨ s.func = 3#3 ∨ s.func = 7#3) ∧
      (∀ t, micro s = .next t → r.r1 = none → readRegister Addr.R1 t = none)

/-- 41 R132: every transition of PHASE by a micro-step, and that no host transaction but a legal CMD write taken while idle
changes PHASE; reset leads to IDLE from everywhere. -/
def Obligations.PhaseTransitions : Prop :=
  (∀ s t : State, micro s = .next t →
    (s.phase = .idle → t = s) ∧
    (s.phase = .setup →
      t.phase = match setup (currentInstr s) s.a s.b with | .fault _ => .idle | .start _ _ _ => .iter) ∧
    (s.phase = .iter → t.phase = if s.ki = 31#6 then .final else .iter) ∧
    (s.phase = .final → t.phase = .idle)) ∧
  (∀ (s : State) (tr : Transaction),
    (s.phase = .idle ∧ tr.we = true ∧ tr.addr = Addr.CMD ∧ tr.wdata.extractLsb' 3 61 = 0#61 →
      (transact tr s).phase = .setup) ∧
    (¬ (s.phase = .idle ∧ tr.we = true ∧ tr.addr = Addr.CMD ∧ tr.wdata.extractLsb' 3 61 = 0#61) →
      (transact tr s).phase = s.phase)) ∧
  (∀ s : State, (hardReset s).phase = .idle)

/-- 41 R141 and 60 R218: a dropped write does not disturb the running command, whichever micro-step comes next: only OVR
differs; and ordered after the micro-step that ends the command the same write is taken. -/
def Obligations.DroppedWriteDisturbsNothing : Prop :=
  ∀ (s t : State) (addr : BitVec 8) (w : Word), s.phase ≠ .idle → micro s = .next t →
    addr = Addr.A ∨ addr = Addr.B ∨ addr = Addr.CMD →
    micro (busWrite addr w s) = .next { t with ovr := true } ∧
    (t.phase = .idle →
      (addr = Addr.A → busWrite addr w t = { t with a := w }) ∧ (addr = Addr.B → busWrite addr w t = { t with b := w }) ∧
      (addr = Addr.CMD → ∀ i, decode w = .legal i → busWrite addr w t = accept i t))

/-- 60 R214 with R211 and R213: in any idle state with OVR clear, a fatal command ends with the STATUS word of the rule's table,
and R0 and R1 are UNSPEC: 0x414 and 0x514 for ASIN and ACOS of every operand outside [-1, 1] (2 and -2 among them), 0x724 for
ATAN2 of the zero vector, and ERR, CAUSE 3 and the low bits of the word for an illegal command word (0x34 for the word 8). -/
def Obligations.FatalCommandsReportTheirStatus : Prop :=
  ∀ s : State, s.phase = .idle → s.ovr = false →
    (S s.a < -4294967296 ∨ 4294967296 < S s.a →
      (∃ t, exec .asin s = .next t ∧ statusWord t = 0x0000000000000414#64 ∧
        readRegister Addr.R0 t = none ∧ readRegister Addr.R1 t = none) ∧
      (∃ t, exec .acos s = .next t ∧ statusWord t = 0x0000000000000514#64 ∧
        readRegister Addr.R0 t = none ∧ readRegister Addr.R1 t = none)) ∧
    (s.a = 0#64 → s.b = 0#64 → ∃ t, exec .atan2 s = .next t ∧ statusWord t = 0x0000000000000724#64 ∧
      readRegister Addr.R0 t = none ∧ readRegister Addr.R1 t = none) ∧
    (∀ w : Word, w.extractLsb' 3 61 ≠ 0#61 →
      let t := busWrite Addr.CMD w s
      statusWord t = 0x34#64 ||| (w.extractLsb' 0 3).setWidth 64 <<< 8 ∧
        readRegister Addr.R0 t = none ∧ readRegister Addr.R1 t = none)

/-! ### Reset -/

/-- 10 R35: the values the spec gives for the state after reset (the values of R0, R1, X, Y, Z, V, F and KI are the model's
choice, log 3, and are not stated here), and that R0 and R1 are not readable. -/
def Obligations.ResetStateValues : Prop :=
  State.reset.a = 0#64 ∧ State.reset.b = 0#64 ∧ statusWord State.reset = 0#64 ∧ State.reset.phase = .idle ∧
  State.reset.func = 0#3 ∧ readRegister Addr.R0 State.reset = none ∧ readRegister Addr.R1 State.reset = none

/-- 70 R240: reset in any state, also in the middle of a command, is one atomic step: A, B and STATUS zero, PHASE IDLE, R0 and
R1 UNSPEC; the command in flight leaves no result and no fault record. -/
def Obligations.ResetInAnyState : Prop :=
  ∀ (s : State) (rest : List Event), s.events = .reset :: rest →
    ∃ t, step s = .next t ∧ t.a = 0#64 ∧ t.b = 0#64 ∧ t.phase = .idle ∧ t.done = false ∧ t.err = false ∧
      t.ovr = false ∧ t.cause = .none ∧ t.func = 0#3 ∧ t.events = rest ∧
      readRegister Addr.R0 t = none ∧ readRegister Addr.R1 t = none

/-- The model's representation of UNSPEC (93 U1; log 1, 2, 4): reading R0 or R1 outside its validity answers the next free
value; R1 after a command without a second result and the eight UNSPEC registers after a reset event are free values. -/
def Obligations.UnspecifiedWordsAreFreeValues : Prop :=
  (∀ (s : State) (addr : BitVec 8), readRegister addr s = none →
    busRead addr s = { s with rdata := Config.freeWord s.free, free := s.free + 1 }) ∧
  (∀ s t : State, s.phase = .final → (currentInstr s).hasPair = false → micro s = .next t →
    t.r1 = Config.freeWord s.free ∧ t.free = s.free + 1) ∧
  (∀ (s t : State) (rest : List Event), s.events = .reset :: rest → step s = .next t →
    t.r0 = Config.freeWord s.free ∧ t.r1 = Config.freeWord (s.free + 1) ∧ t.x = Config.freeWord (s.free + 2) ∧
    t.y = Config.freeWord (s.free + 3) ∧ t.z = Config.freeWord (s.free + 4) ∧ t.v = Config.freeWord (s.free + 5) ∧
    t.f = Config.freeWord (s.free + 6) ∧ t.ki = Config.freeIndex (s.free + 7) ∧ t.free = s.free + 8)

/-! ### The whole machine -/

/-- The invariant holds in the state after reset. -/
def Obligations.InvariantHoldsAtReset : Prop := State.reset.Inv

/-- Every step keeps the invariant, whatever event it takes. -/
def Obligations.InvariantKeptByEveryStep : Prop := ∀ s t : State, s.Inv → step s = .next t → t.Inv

/-- In a state that meets the invariant no step stops: there is no fault and no refusal, whatever event it takes. -/
def Obligations.NoStepStops : Prop := ∀ s : State, s.Inv → Continues (step s)

/-- 10 R29: at most one of BUSY, DONE and ERR is 1 after every run from the state after reset, under every schedule. -/
def Obligations.AtMostOneOfBusyDoneErr : Prop :=
  ∀ (n : Nat) (schedule : List Event) (t : State),
    Sys2Proof.core.run n { State.reset with events := schedule } = .next t →
    ¬ (busy t = true ∧ t.done = true) ∧ ¬ (busy t = true ∧ t.err = true) ∧ ¬ (t.done = true ∧ t.err = true) ∧
    (t.err = false ↔ t.cause = .none)

/-- 41 R138: the meaning of a command as one function is what the CMD write followed by the engine's micro-steps gives, in
every register: 34 micro-steps after the write the machine is in the state the meaning gives (after a fault it is there after
one, and stays). -/
def Obligations.MicroStepsRefineTheCommand : Prop :=
  ∀ (i : Instr) (s : State), s.phase = .idle → s.events = [.bus (commandTransaction i)] →
    Sys2Proof.core.run 35 s = exec i { s with events := [] }

/-- 41 R138, both rows of its table and its sentence on OVR: interleaved host transactions cannot change the outcome. However
transactions and the first 33 micro-steps of an accepted command are interleaved, after the 34th micro-step the engine is idle with
DONE set, the results of the command on the operands in place at the CMD write in R0 and R1 (UNSPEC where the command has no second
result), and A and B unchanged. A command that faults does so in its first micro-step, whatever transactions come before it: ERR and
CAUSE set, R0 and R1 UNSPEC, A and B unchanged. In both cases OVR is what the transactions make of it in their order (41 R141): where
none of them clears it, it is 1 exactly when it was 1 before or one of them wrote A, B or CMD. R138 leaves a clearing STATUS write
between them out (log 11). -/
def Obligations.InterleavingCannotChangeTheResult : Prop :=
  ∀ (i : Instr) (s : State) (between after : List Event),
    s.phase = .idle → s.events = .bus (commandTransaction i) :: between ++ .micro :: after →
    (∀ e ∈ between, e = .micro ∨ ∃ tr, e = .bus tr) →
    (∀ r, answer i s.a s.b = .result r → between.count .micro = 33 →
      ∃ t, Sys2Proof.core.run (between.length + 2) s = .next t ∧ t.phase = .idle ∧ t.done = true ∧ t.err = false ∧
        t.cause = .none ∧ t.func = i.code ∧ t.r0 = r.r0 ∧ (∀ w, r.r1 = some w → t.r1 = w) ∧
        readRegister Addr.R0 t = some r.r0 ∧ readRegister Addr.R1 t = r.r1 ∧
        t.a = s.a ∧ t.b = s.b ∧ t.events = after ∧ t.ovr = ovrAfter s.ovr between) ∧
    (∀ c, answer i s.a s.b = .fault c → between.count .micro = 0 →
      ∃ t, Sys2Proof.core.run (between.length + 2) s = .next t ∧ t.phase = .idle ∧ t.done = false ∧ t.err = true ∧
        t.cause = c ∧ t.func = i.code ∧ readRegister Addr.R0 t = none ∧ readRegister Addr.R1 t = none ∧
        t.a = s.a ∧ t.b = s.b ∧ t.events = after ∧ t.ovr = ovrAfter s.ovr between) ∧
    ((∀ w, w.getLsbD 3 = true → .bus ⟨true, Addr.STATUS, w⟩ ∉ between) →
      (ovrAfter s.ovr between = true ↔
        s.ovr = true ∨ ∃ addr w, .bus ⟨true, addr, w⟩ ∈ between ∧ (addr = Addr.A ∨ addr = Addr.B ∨ addr = Addr.CMD)))

/-- 41 R136 and R139: a command that passes SETUP runs exactly 34 micro-steps, whatever its operands: SETUP, ITER with KI = 0,
1, …, 31 in that order, FINAL with KI = 32, and is then idle; one that faults runs 1. -/
def Obligations.FixedStepCount : Prop :=
  ∀ (i : Instr) (s : State), s.phase = .idle → s.events = [] →
    (∀ c, setup i s.a s.b = .fault c → ∃ t, micro (accept i s) = .next t ∧ t.phase = .idle) ∧
    (∀ p v0 f0, setup i s.a s.b = .start p v0 f0 →
      ∀ n ≤ 34, ∃ t, Sys2Proof.core.run n (accept i s) = .next t ∧
        (n = 0 → t.phase = .setup) ∧ (1 ≤ n → n ≤ 32 → t.phase = .iter ∧ t.ki.toNat + 1 = n) ∧
        (n = 33 → t.phase = .final ∧ t.ki = 32#6) ∧ (n = 34 → t.phase = .idle))

/-- 41 R138: where a command is taken while idle, its meaning leaves the answer of `exec(func, a, b)`: the results with DONE,
or the fault with ERR and CAUSE. Where 41 R138 says UNSPEC for R1, the model's choice is the next free value (log 2). -/
def Obligations.MeaningGivesTheAnswer : Prop :=
  ∀ (i : Instr) (s : State), s.phase = .idle →
    (∀ c, answer i s.a s.b = .fault c → ∃ t, exec i s = .next t ∧ FaultedWith i c s t) ∧
    (∀ r, answer i s.a s.b = .result r →
      ∃ t, exec i s = .next t ∧ CompletedBy i s t ∧ t.r0 = r.r0 ∧
        ((i.hasPair = true ∧ r.r1 = some t.r1) ∨ (i.hasPair = false ∧ r.r1 = none ∧ t.r1 = Config.freeWord s.free)))

/-- 00 R4, 10 R34, 70 R247: what a host can read of a command's outcome depends on the function code and the operands alone
(B for ATAN2 only), and not on the working registers, earlier results, flags or anything else in the state. -/
def Obligations.OutcomeDependsOnOperandsOnly : Prop :=
  ∀ (i : Instr) (s s' t t' : State), s.phase = .idle → s'.phase = .idle → s.a = s'.a → (i = .atan2 → s.b = s'.b) →
    exec i s = .next t → exec i s' = .next t' → SameOutcome t t'

/-- 70 R249 and 30 R88: the host program `<command>.i a` terminates. From any idle state, with the engine taking a micro-step
between two reads of STATUS, 71 steps exhaust it and leave the engine idle with the command's answer. The one micro-step between
two reads (log 16), and that none falls between two other statements of the program (log 22), are the model's choices: the spec
leaves the number open (93 U21). -/
def Obligations.WaitTerminates : Prop :=
  ∀ (i : Instr) (s : State) (a : Word), s.phase = .idle → s.events = immediateForm i a →
    ∃ t, Sys2Proof.core.run 71 s = .next t ∧ t.events = [] ∧ t.phase = .idle ∧ t.a = a ∧ t.func = i.code ∧
      (∀ c, answer i a s.b = .fault c → t.err = true ∧ t.cause = c ∧ t.done = false) ∧
      (∀ r, answer i a s.b = .result r → t.done = true ∧ t.err = false ∧ t.r0 = r.r0 ∧ ∀ w, r.r1 = some w → t.r1 = w)
end

