-- ==== Sys2Proof/Laws/Fixed.lean ====
section
/-! SUPPORT. Small lemmas on words as integers and on the primitives: what each gives as an integer when its exact result
fits in a word, and the rounding facts. -/

namespace Sys2Proof

/-- The signed reading of a word lies in [-2^63, 2^63). -/
theorem S_bounds (w : Word) : -2 ^ 63 ≤ S w ∧ S w < 2 ^ 63 := by
  have h1 := BitVec.le_toInt w
  have h2 := BitVec.toInt_lt (x := w)
  exact ⟨by simpa using h1, by simpa using h2⟩

/-- `S(W(n)) = n` when `n` fits in a word. -/
theorem S_W {n : Int} (h1 : -2 ^ 63 ≤ n) (h2 : n < 2 ^ 63) : S (W n) = n := by
  show (BitVec.ofInt 64 n).toInt = n
  rw [BitVec.toInt_ofInt]
  apply Int.bmod_eq_of_le <;> norm_num <;> omega

/-- `W(S(w)) = w` (00 R11). -/
@[simp] theorem W_S (w : Word) : W (S w) = w := BitVec.ofInt_toInt

/-- Two words with one signed reading are equal. -/
theorem word_ext {a b : Word} (h : S a = S b) : a = b := BitVec.eq_of_toInt_eq h

namespace Fixed

theorem S_add {a b : Word} (h1 : -2 ^ 63 ≤ S a + S b) (h2 : S a + S b < 2 ^ 63) : S (add a b) = S a + S b :=
  S_W h1 h2

theorem S_sub {a b : Word} (h1 : -2 ^ 63 ≤ S a - S b) (h2 : S a - S b < 2 ^ 63) : S (sub a b) = S a - S b :=
  S_W h1 h2

theorem S_neg {a : Word} (h : S a ≠ -2 ^ 63) : S (neg a) = -S a := by
  have := S_bounds a
  exact S_W (by omega) (by omega)

/-- The shifter never overflows: its result is the floored quotient. -/
theorem S_asr (a : Word) (k : Nat) : S (asr a k) = S a / 2 ^ k := by
  have hb := S_bounds a
  have hpos : (0 : Int) < 2 ^ k := by positivity
  have hone : (1 : Int) ≤ 2 ^ k := hpos
  apply S_W
  · rw [Int.le_ediv_iff_mul_le hpos]; nlinarith
  · rw [Int.ediv_lt_iff_lt_mul hpos]; nlinarith

/-- Narrowing never overflows (40 R113). -/
theorem S_narrow (t : Word) : S (narrow t) = S t / 2 ^ 28 := by
  have hb := S_bounds t
  exact S_W (by omega) (by omega)

theorem S_mul {a b : Word} (h1 : -2 ^ 63 ≤ S a * S b / 2 ^ 32) (h2 : S a * S b / 2 ^ 32 < 2 ^ 63) :
    S (mul a b) = S a * S b / 2 ^ 32 :=
  S_W h1 h2

theorem clamp_bounds (n : Int) : -2 ^ 63 ≤ clamp n (-2 ^ 63) (2 ^ 63 - 1) ∧ clamp n (-2 ^ 63) (2 ^ 63 - 1) < 2 ^ 63 := by
  unfold clamp
  split
  · omega
  · split <;> omega

/-- The saturating product as an integer. -/
theorem S_smul (a b : Word) : S (smul a b) = clamp (S a * S b / 2 ^ 32) (-2 ^ 63) (2 ^ 63 - 1) :=
  S_W (clamp_bounds _).1 (clamp_bounds _).2

theorem add_comm (a b : Word) : add a b = add b a := by
  unfold add; rw [Int.add_comm]

theorem mul_comm (a b : Word) : mul a b = mul b a := by
  unfold mul flooredProduct; rw [Int.mul_comm]

theorem smul_comm (a b : Word) : smul a b = smul b a := by
  unfold smul flooredProduct; rw [Int.mul_comm]

/-- `neg(MIN) = MIN` (40 R103). -/
theorem neg_min : neg Const.MIN = Const.MIN := by decide

/-- `abs(MIN) = MIN` (40 R104). -/
theorem abs_min : abs Const.MIN = Const.MIN := by decide

end Fixed

/-- The narrowed gain (20 R53). -/
theorem Rom.gainK_eq : Rom.gainK = 0x000000009B74EDA8#64 := by decide

/-- The negated narrowed gain (20 R53). -/
theorem Rom.gainNegK_eq : Rom.gainNegK = 0xFFFFFFFF648B1258#64 := by decide

/-- HALF_PI, TWO_PI, THREE_HALF_PI and NEG_PI as they are formed from PI (00 R13). -/
theorem Const.derived_from_pi :
    Const.HALF_PI = Fixed.asr Const.PI 1 ∧ S Const.TWO_PI = 2 * S Const.PI ∧
    Const.THREE_HALF_PI = Fixed.add Const.PI Const.HALF_PI ∧ Const.NEG_PI = Fixed.neg Const.PI := by decide

end Sys2Proof
end

