-- ==== Sys2Proof/Laws/State.lean ====
section
/-! SUPPORT. One lemma per field per shared update, true by rfl: what each update writes, and that it leaves the rest. -/

namespace Sys2Proof.Machine

/-! ### accept -/

@[simp] theorem accept_a (i : Instr) (s : State) : (accept i s).a = s.a := rfl
@[simp] theorem accept_b (i : Instr) (s : State) : (accept i s).b = s.b := rfl
@[simp] theorem accept_r0 (i : Instr) (s : State) : (accept i s).r0 = s.r0 := rfl
@[simp] theorem accept_r1 (i : Instr) (s : State) : (accept i s).r1 = s.r1 := rfl
@[simp] theorem accept_x (i : Instr) (s : State) : (accept i s).x = s.x := rfl
@[simp] theorem accept_y (i : Instr) (s : State) : (accept i s).y = s.y := rfl
@[simp] theorem accept_z (i : Instr) (s : State) : (accept i s).z = s.z := rfl
@[simp] theorem accept_v (i : Instr) (s : State) : (accept i s).v = s.v := rfl
@[simp] theorem accept_f (i : Instr) (s : State) : (accept i s).f = s.f := rfl
@[simp] theorem accept_ki (i : Instr) (s : State) : (accept i s).ki = s.ki := rfl
@[simp] theorem accept_phase (i : Instr) (s : State) : (accept i s).phase = .setup := rfl
@[simp] theorem accept_func (i : Instr) (s : State) : (accept i s).func = i.code := rfl
@[simp] theorem accept_done (i : Instr) (s : State) : (accept i s).done = false := rfl
@[simp] theorem accept_err (i : Instr) (s : State) : (accept i s).err = false := rfl
@[simp] theorem accept_ovr (i : Instr) (s : State) : (accept i s).ovr = s.ovr := rfl
@[simp] theorem accept_cause (i : Instr) (s : State) : (accept i s).cause = .none := rfl
@[simp] theorem accept_free (i : Instr) (s : State) : (accept i s).free = s.free := rfl
@[simp] theorem accept_rdata (i : Instr) (s : State) : (accept i s).rdata = s.rdata := rfl
@[simp] theorem accept_events (i : Instr) (s : State) : (accept i s).events = s.events := rfl

/-! ### raise -/

@[simp] theorem raise_a (c : Cause) (s : State) : (raise c s).a = s.a := rfl
@[simp] theorem raise_b (c : Cause) (s : State) : (raise c s).b = s.b := rfl
@[simp] theorem raise_r0 (c : Cause) (s : State) : (raise c s).r0 = s.r0 := rfl
@[simp] theorem raise_r1 (c : Cause) (s : State) : (raise c s).r1 = s.r1 := rfl
@[simp] theorem raise_x (c : Cause) (s : State) : (raise c s).x = s.x := rfl
@[simp] theorem raise_y (c : Cause) (s : State) : (raise c s).y = s.y := rfl
@[simp] theorem raise_z (c : Cause) (s : State) : (raise c s).z = s.z := rfl
@[simp] theorem raise_v (c : Cause) (s : State) : (raise c s).v = s.v := rfl
@[simp] theorem raise_f (c : Cause) (s : State) : (raise c s).f = s.f := rfl
@[simp] theorem raise_ki (c : Cause) (s : State) : (raise c s).ki = s.ki := rfl
@[simp] theorem raise_phase (c : Cause) (s : State) : (raise c s).phase = .idle := rfl
@[simp] theorem raise_func (c : Cause) (s : State) : (raise c s).func = s.func := rfl
@[simp] theorem raise_done (c : Cause) (s : State) : (raise c s).done = false := rfl
@[simp] theorem raise_err (c : Cause) (s : State) : (raise c s).err = true := rfl
@[simp] theorem raise_ovr (c : Cause) (s : State) : (raise c s).ovr = s.ovr := rfl
@[simp] theorem raise_cause (c : Cause) (s : State) : (raise c s).cause = c := rfl
@[simp] theorem raise_free (c : Cause) (s : State) : (raise c s).free = s.free := rfl
@[simp] theorem raise_rdata (c : Cause) (s : State) : (raise c s).rdata = s.rdata := rfl
@[simp] theorem raise_events (c : Cause) (s : State) : (raise c s).events = s.events := rfl

/-! ### rejectCommand -/

@[simp] theorem rejectCommand_a (c : BitVec 3) (s : State) : (rejectCommand c s).a = s.a := rfl
@[simp] theorem rejectCommand_b (c : BitVec 3) (s : State) : (rejectCommand c s).b = s.b := rfl
@[simp] theorem rejectCommand_r0 (c : BitVec 3) (s : State) : (rejectCommand c s).r0 = s.r0 := rfl
@[simp] theorem rejectCommand_r1 (c : BitVec 3) (s : State) : (rejectCommand c s).r1 = s.r1 := rfl
@[simp] theorem rejectCommand_x (c : BitVec 3) (s : State) : (rejectCommand c s).x = s.x := rfl
@[simp] theorem rejectCommand_y (c : BitVec 3) (s : State) : (rejectCommand c s).y = s.y := rfl
@[simp] theorem rejectCommand_z (c : BitVec 3) (s : State) : (rejectCommand c s).z = s.z := rfl
@[simp] theorem rejectCommand_v (c : BitVec 3) (s : State) : (rejectCommand c s).v = s.v := rfl
@[simp] theorem rejectCommand_f (c : BitVec 3) (s : State) : (rejectCommand c s).f = s.f := rfl
@[simp] theorem rejectCommand_ki (c : BitVec 3) (s : State) : (rejectCommand c s).ki = s.ki := rfl
@[simp] theorem rejectCommand_phase (c : BitVec 3) (s : State) : (rejectCommand c s).phase = .idle := rfl
@[simp] theorem rejectCommand_func (c : BitVec 3) (s : State) : (rejectCommand c s).func = c := rfl
@[simp] theorem rejectCommand_done (c : BitVec 3) (s : State) : (rejectCommand c s).done = false := rfl
@[simp] theorem rejectCommand_err (c : BitVec 3) (s : State) : (rejectCommand c s).err = true := rfl
@[simp] theorem rejectCommand_ovr (c : BitVec 3) (s : State) : (rejectCommand c s).ovr = s.ovr := rfl
@[simp] theorem rejectCommand_cause (c : BitVec 3) (s : State) : (rejectCommand c s).cause = .illegalCmd := rfl
@[simp] theorem rejectCommand_free (c : BitVec 3) (s : State) : (rejectCommand c s).free = s.free := rfl
@[simp] theorem rejectCommand_rdata (c : BitVec 3) (s : State) : (rejectCommand c s).rdata = s.rdata := rfl
@[simp] theorem rejectCommand_events (c : BitVec 3) (s : State) : (rejectCommand c s).events = s.events := rfl

/-! ### dropWrite -/

@[simp] theorem dropWrite_a (s : State) : (dropWrite s).a = s.a := rfl
@[simp] theorem dropWrite_b (s : State) : (dropWrite s).b = s.b := rfl
@[simp] theorem dropWrite_r0 (s : State) : (dropWrite s).r0 = s.r0 := rfl
@[simp] theorem dropWrite_r1 (s : State) : (dropWrite s).r1 = s.r1 := rfl
@[simp] theorem dropWrite_x (s : State) : (dropWrite s).x = s.x := rfl
@[simp] theorem dropWrite_y (s : State) : (dropWrite s).y = s.y := rfl
@[simp] theorem dropWrite_z (s : State) : (dropWrite s).z = s.z := rfl
@[simp] theorem dropWrite_v (s : State) : (dropWrite s).v = s.v := rfl
@[simp] theorem dropWrite_f (s : State) : (dropWrite s).f = s.f := rfl
@[simp] theorem dropWrite_ki (s : State) : (dropWrite s).ki = s.ki := rfl
@[simp] theorem dropWrite_phase (s : State) : (dropWrite s).phase = s.phase := rfl
@[simp] theorem dropWrite_func (s : State) : (dropWrite s).func = s.func := rfl
@[simp] theorem dropWrite_done (s : State) : (dropWrite s).done = s.done := rfl
@[simp] theorem dropWrite_err (s : State) : (dropWrite s).err = s.err := rfl
@[simp] theorem dropWrite_ovr (s : State) : (dropWrite s).ovr = true := rfl
@[simp] theorem dropWrite_cause (s : State) : (dropWrite s).cause = s.cause := rfl
@[simp] theorem dropWrite_free (s : State) : (dropWrite s).free = s.free := rfl
@[simp] theorem dropWrite_rdata (s : State) : (dropWrite s).rdata = s.rdata := rfl
@[simp] theorem dropWrite_events (s : State) : (dropWrite s).events = s.events := rfl

/-! ### start -/

@[simp] theorem start_a (p : Vec) (v0 f0 : Option Word) (s : State) : (start p v0 f0 s).a = s.a := rfl
@[simp] theorem start_b (p : Vec) (v0 f0 : Option Word) (s : State) : (start p v0 f0 s).b = s.b := rfl
@[simp] theorem start_r0 (p : Vec) (v0 f0 : Option Word) (s : State) : (start p v0 f0 s).r0 = s.r0 := rfl
@[simp] theorem start_r1 (p : Vec) (v0 f0 : Option Word) (s : State) : (start p v0 f0 s).r1 = s.r1 := rfl
@[simp] theorem start_x (p : Vec) (v0 f0 : Option Word) (s : State) : (start p v0 f0 s).x = p.x := rfl
@[simp] theorem start_y (p : Vec) (v0 f0 : Option Word) (s : State) : (start p v0 f0 s).y = p.y := rfl
@[simp] theorem start_z (p : Vec) (v0 f0 : Option Word) (s : State) : (start p v0 f0 s).z = p.z := rfl
@[simp] theorem start_v (p : Vec) (v0 f0 : Option Word) (s : State) : (start p v0 f0 s).v = v0.getD s.v := rfl
@[simp] theorem start_f (p : Vec) (v0 f0 : Option Word) (s : State) : (start p v0 f0 s).f = f0.getD s.f := rfl
@[simp] theorem start_ki (p : Vec) (v0 f0 : Option Word) (s : State) : (start p v0 f0 s).ki = 0#6 := rfl
@[simp] theorem start_phase (p : Vec) (v0 f0 : Option Word) (s : State) : (start p v0 f0 s).phase = .iter := rfl
@[simp] theorem start_func (p : Vec) (v0 f0 : Option Word) (s : State) : (start p v0 f0 s).func = s.func := rfl
@[simp] theorem start_done (p : Vec) (v0 f0 : Option Word) (s : State) : (start p v0 f0 s).done = s.done := rfl
@[simp] theorem start_err (p : Vec) (v0 f0 : Option Word) (s : State) : (start p v0 f0 s).err = s.err := rfl
@[simp] theorem start_ovr (p : Vec) (v0 f0 : Option Word) (s : State) : (start p v0 f0 s).ovr = s.ovr := rfl
@[simp] theorem start_cause (p : Vec) (v0 f0 : Option Word) (s : State) : (start p v0 f0 s).cause = s.cause := rfl
@[simp] theorem start_free (p : Vec) (v0 f0 : Option Word) (s : State) : (start p v0 f0 s).free = s.free := rfl
@[simp] theorem start_rdata (p : Vec) (v0 f0 : Option Word) (s : State) : (start p v0 f0 s).rdata = s.rdata := rfl
@[simp] theorem start_events (p : Vec) (v0 f0 : Option Word) (s : State) : (start p v0 f0 s).events = s.events := rfl

/-! ### advance -/

@[simp] theorem advance_a (p : Vec) (s : State) : (advance p s).a = s.a := rfl
@[simp] theorem advance_b (p : Vec) (s : State) : (advance p s).b = s.b := rfl
@[simp] theorem advance_r0 (p : Vec) (s : State) : (advance p s).r0 = s.r0 := rfl
@[simp] theorem advance_r1 (p : Vec) (s : State) : (advance p s).r1 = s.r1 := rfl
@[simp] theorem advance_x (p : Vec) (s : State) : (advance p s).x = p.x := rfl
@[simp] theorem advance_y (p : Vec) (s : State) : (advance p s).y = p.y := rfl
@[simp] theorem advance_z (p : Vec) (s : State) : (advance p s).z = p.z := rfl
@[simp] theorem advance_v (p : Vec) (s : State) : (advance p s).v = s.v := rfl
@[simp] theorem advance_f (p : Vec) (s : State) : (advance p s).f = s.f := rfl
@[simp] theorem advance_ki (p : Vec) (s : State) : (advance p s).ki = s.ki + 1#6 := rfl
@[simp] theorem advance_phase (p : Vec) (s : State) : (advance p s).phase = if s.ki = 31#6 then .final else .iter := rfl
@[simp] theorem advance_func (p : Vec) (s : State) : (advance p s).func = s.func := rfl
@[simp] theorem advance_done (p : Vec) (s : State) : (advance p s).done = s.done := rfl
@[simp] theorem advance_err (p : Vec) (s : State) : (advance p s).err = s.err := rfl
@[simp] theorem advance_ovr (p : Vec) (s : State) : (advance p s).ovr = s.ovr := rfl
@[simp] theorem advance_cause (p : Vec) (s : State) : (advance p s).cause = s.cause := rfl
@[simp] theorem advance_free (p : Vec) (s : State) : (advance p s).free = s.free := rfl
@[simp] theorem advance_rdata (p : Vec) (s : State) : (advance p s).rdata = s.rdata := rfl
@[simp] theorem advance_events (p : Vec) (s : State) : (advance p s).events = s.events := rfl

/-! ### complete -/

@[simp] theorem complete_a (r : Results) (s : State) : (complete r s).a = s.a := rfl
@[simp] theorem complete_b (r : Results) (s : State) : (complete r s).b = s.b := rfl
@[simp] theorem complete_r0 (r : Results) (s : State) : (complete r s).r0 = r.r0 := rfl
@[simp] theorem complete_r1 (r : Results) (s : State) : (complete r s).r1 = r.r1.getD (Config.freeWord s.free) := rfl
@[simp] theorem complete_x (r : Results) (s : State) : (complete r s).x = s.x := rfl
@[simp] theorem complete_y (r : Results) (s : State) : (complete r s).y = s.y := rfl
@[simp] theorem complete_z (r : Results) (s : State) : (complete r s).z = s.z := rfl
@[simp] theorem complete_v (r : Results) (s : State) : (complete r s).v = s.v := rfl
@[simp] theorem complete_f (r : Results) (s : State) : (complete r s).f = s.f := rfl
@[simp] theorem complete_ki (r : Results) (s : State) : (complete r s).ki = s.ki := rfl
@[simp] theorem complete_phase (r : Results) (s : State) : (complete r s).phase = .idle := rfl
@[simp] theorem complete_func (r : Results) (s : State) : (complete r s).func = s.func := rfl
@[simp] theorem complete_done (r : Results) (s : State) : (complete r s).done = true := rfl
@[simp] theorem complete_err (r : Results) (s : State) : (complete r s).err = false := rfl
@[simp] theorem complete_ovr (r : Results) (s : State) : (complete r s).ovr = s.ovr := rfl
@[simp] theorem complete_cause (r : Results) (s : State) : (complete r s).cause = .none := rfl
@[simp] theorem complete_free (r : Results) (s : State) : (complete r s).free = if r.r1.isSome then s.free else s.free + 1 := rfl
@[simp] theorem complete_rdata (r : Results) (s : State) : (complete r s).rdata = s.rdata := rfl
@[simp] theorem complete_events (r : Results) (s : State) : (complete r s).events = s.events := rfl

/-! ### hardReset -/

@[simp] theorem hardReset_a (s : State) : (hardReset s).a = 0#64 := rfl
@[simp] theorem hardReset_b (s : State) : (hardReset s).b = 0#64 := rfl
@[simp] theorem hardReset_r0 (s : State) : (hardReset s).r0 = Config.freeWord s.free := rfl
@[simp] theorem hardReset_r1 (s : State) : (hardReset s).r1 = Config.freeWord (s.free + 1) := rfl
@[simp] theorem hardReset_x (s : State) : (hardReset s).x = Config.freeWord (s.free + 2) := rfl
@[simp] theorem hardReset_y (s : State) : (hardReset s).y = Config.freeWord (s.free + 3) := rfl
@[simp] theorem hardReset_z (s : State) : (hardReset s).z = Config.freeWord (s.free + 4) := rfl
@[simp] theorem hardReset_v (s : State) : (hardReset s).v = Config.freeWord (s.free + 5) := rfl
@[simp] theorem hardReset_f (s : State) : (hardReset s).f = Config.freeWord (s.free + 6) := rfl
@[simp] theorem hardReset_ki (s : State) : (hardReset s).ki = Config.freeIndex (s.free + 7) := rfl
@[simp] theorem hardReset_phase (s : State) : (hardReset s).phase = .idle := rfl
@[simp] theorem hardReset_func (s : State) : (hardReset s).func = 0#3 := rfl
@[simp] theorem hardReset_done (s : State) : (hardReset s).done = false := rfl
@[simp] theorem hardReset_err (s : State) : (hardReset s).err = false := rfl
@[simp] theorem hardReset_ovr (s : State) : (hardReset s).ovr = false := rfl
@[simp] theorem hardReset_cause (s : State) : (hardReset s).cause = .none := rfl
@[simp] theorem hardReset_free (s : State) : (hardReset s).free = s.free + 8 := rfl
@[simp] theorem hardReset_rdata (s : State) : (hardReset s).rdata = s.rdata := rfl
@[simp] theorem hardReset_events (s : State) : (hardReset s).events = s.events := rfl

end Sys2Proof.Machine
end

