-- ==== Sys2Proof/Laws/Ops.lean ====
section
/-! SUPPORT. What the host's operations can do, said once: the provers cite these instead of unfolding the operations. -/

namespace Sys2Proof.Machine

/-- A read delivers a word and may draw a free value; it writes nothing else. -/
theorem answerRead_shape (o : Option Word) (s : State) :
    ∃ w n, answerRead o s = { s with rdata := w, free := n } := by
  cases o with
  | none => exact ⟨_, _, rfl⟩
  | some w => exact ⟨w, s.free, rfl⟩

/-- Everything a STATUS write can do. -/
theorem writeStatus_cases (w : Word) (s : State) :
    (w.getLsbD 3 = true ∧ writeStatus w s = { s with ovr := false }) ∨ (w.getLsbD 3 = false ∧ writeStatus w s = s) := by
  unfold writeStatus
  cases h : w.getLsbD 3 <;> simp

/-- Everything a CMD write can do (41 R131, R141). -/
theorem writeCommand_cases (w : Word) (s : State) :
    (s.phase = .idle ∧ ∃ i, decode w = .legal i ∧ writeCommand w s = accept i s) ∨
    (s.phase = .idle ∧ ∃ f, decode w = .illegalCommand f ∧ writeCommand w s = rejectCommand f s) ∨
    (s.phase ≠ .idle ∧ writeCommand w s = dropWrite s) := by
  unfold writeCommand
  by_cases h : s.phase = .idle
  · cases hd : decode w <;> simp [h]
  · simp [h]

/-- Everything a host write can do (20 R58). -/
theorem busWrite_cases (addr : BitVec 8) (w : Word) (s : State) :
    busWrite addr w s = s ∨
    (s.phase = .idle ∧ busWrite addr w s = { s with a := w }) ∨
    (s.phase = .idle ∧ busWrite addr w s = { s with b := w }) ∨
    (s.phase = .idle ∧ addr = 0x02#8 ∧ ∃ i, decode w = .legal i ∧ busWrite addr w s = accept i s) ∨
    (s.phase = .idle ∧ addr = 0x02#8 ∧ ∃ f, decode w = .illegalCommand f ∧ busWrite addr w s = rejectCommand f s) ∨
    (s.phase ≠ .idle ∧ busWrite addr w s = dropWrite s) ∨
    (addr = 0x03#8 ∧ w.getLsbD 3 = true ∧ busWrite addr w s = { s with ovr := false }) := by
  unfold busWrite writeA writeB
  split_ifs with h0 hi h1 hi h2 h3
  · exact .inr (.inl ⟨hi, rfl⟩)
  · exact .inr (.inr (.inr (.inr (.inr (.inl ⟨hi, rfl⟩)))))
  · exact .inr (.inr (.inl ⟨hi, rfl⟩))
  · exact .inr (.inr (.inr (.inr (.inr (.inl ⟨hi, rfl⟩)))))
  · rcases writeCommand_cases w s with ⟨hi, i, hd, hw⟩ | ⟨hi, f, hd, hw⟩ | ⟨hi, hw⟩
    · exact .inr (.inr (.inr (.inl ⟨hi, h2, i, hd, hw⟩)))
    · exact .inr (.inr (.inr (.inr (.inl ⟨hi, h2, f, hd, hw⟩))))
    · exact .inr (.inr (.inr (.inr (.inr (.inl ⟨hi, hw⟩)))))
  · rcases writeStatus_cases w s with ⟨hw, he⟩ | ⟨_, he⟩
    · exact .inr (.inr (.inr (.inr (.inr (.inr ⟨h3, hw, he⟩)))))
    · exact .inl he
  · exact .inl rfl

/-- What a host write leaves in every case: the results, the working registers, and what belongs to the host and the model. -/
theorem busWrite_frame (addr : BitVec 8) (w : Word) (s : State) :
    (busWrite addr w s).r0 = s.r0 ∧ (busWrite addr w s).r1 = s.r1 ∧ (busWrite addr w s).x = s.x ∧
    (busWrite addr w s).y = s.y ∧ (busWrite addr w s).z = s.z ∧ (busWrite addr w s).v = s.v ∧
    (busWrite addr w s).f = s.f ∧ (busWrite addr w s).ki = s.ki ∧ (busWrite addr w s).free = s.free ∧
    (busWrite addr w s).rdata = s.rdata ∧ (busWrite addr w s).events = s.events := by
  rcases busWrite_cases addr w s with h | ⟨_, h⟩ | ⟨_, h⟩ | ⟨_, _, _, _, h⟩ | ⟨_, _, _, _, h⟩ | ⟨_, h⟩ | ⟨_, _, h⟩ <;>
    simp [h]

/-- `poll` is a STATUS read, and then a micro-step and another poll are put before the rest while the engine is busy. -/
theorem poll_shape (s : State) :
    ∃ w n l, poll s = { s with rdata := w, free := n, events := l } := by
  unfold poll busRead
  obtain ⟨w, n, h⟩ := answerRead_shape (readRegister 0x03#8 s) s
  rw [h]
  dsimp only
  split
  · exact ⟨w, n, _, rfl⟩
  · exact ⟨w, n, _, rfl⟩

end Sys2Proof.Machine
end

