-- ==== Sys2Proof/Laws/PerInstr.lean ====
section
/-! SUPPORT. The per-instruction family FunctionCode: the function code of each command names the command again, and the
command word holds the code in its low three bits and zero above (30 R83, R84). -/

namespace Sys2Proof.Laws.FunctionCode

/-- The statement of the family for one command. -/
def Statement (i : Instr) : Prop :=
  i.wf = true ∧ Instr.ofCode i.code = i ∧ funcField (encode i) = i.code ∧ (encode i).extractLsb' 3 61 = 0#61

theorem sincos : Statement .sincos := by unfold Statement; decide
theorem sin : Statement .sin := by unfold Statement; decide
theorem cos : Statement .cos := by unfold Statement; decide
theorem tan : Statement .tan := by unfold Statement; decide
theorem asin : Statement .asin := by unfold Statement; decide
theorem acos : Statement .acos := by unfold Statement; decide
theorem atan : Statement .atan := by unfold Statement; decide
theorem atan2 : Statement .atan2 := by unfold Statement; decide

end Sys2Proof.Laws.FunctionCode
end

