-- ==== Sys2Proof/Laws/Pipeline.lean ====
section
/-! SUPPORT. The pipeline's functions by mode, what a micro-step can do, and what a step can do. -/

namespace Sys2Proof

/-- The code of a command names the command. -/
@[simp] theorem Instr.ofCode_code (i : Instr) : Instr.ofCode i.code = i := by
  cases i <;> rfl

namespace Machine

@[simp] theorem currentInstr_accept (i : Instr) (s : State) : currentInstr (accept i s) = i := by
  simp [currentInstr]

/-- The four rotation-mode commands have the same SETUP (42 R161). -/
theorem setup_rotation {i : Instr} (h : i.isRotation = true) (a b : Word) : setup i a b = setupRotation a := by
  cases i <;> first | rfl | simp [Instr.isRotation] at h

/-- The four rotation-mode commands have the same ITER (42 R161, R163). -/
theorem iter_rotation {i : Instr} (h : i.isRotation = true) (k : Nat) (p : Vec) (v : Word) : iter i k p v = rotate k p := by
  cases i <;> first | rfl | simp [Instr.isRotation] at h

/-- The iteration count as a numeral. -/
theorem iterations_eq : iterations = 32 := rfl

@[simp] theorem iterate_zero (i : Instr) (v : Word) (p : Vec) : iterate i v 0 p = p := rfl

theorem iterate_succ (i : Instr) (v : Word) (n : Nat) (p : Vec) :
    iterate i v (n + 1) p = iter i n (iterate i v n p) v := rfl

/-- Rotation mode reads neither the target V nor which of the four commands runs. -/
theorem iterate_rotation {i j : Instr} (hi : i.isRotation = true) (hj : j.isRotation = true) (v w : Word) (n : Nat)
    (p : Vec) : iterate i v n p = iterate j w n p := by
  induction n with
  | zero => rfl
  | succ n ih => rw [iterate_succ, iterate_succ, iter_rotation hi, iter_rotation hj, ih]

/-- ATAN2 iterates as ATAN does (44 R200). -/
theorem iterate_atan2 (v : Word) (n : Nat) (p : Vec) : iterate .atan2 v n p = iterate .atan v n p := by
  induction n with
  | zero => rfl
  | succ n ih => rw [iterate_succ, iterate_succ, ih]; rfl

/-- What a micro-step that gives a next state did, by PHASE (41 R132 to R137). -/
theorem micro_cases {s t : State} (h : micro s = .next t) :
    (s.phase = .idle ∧ t = s) ∨ (s.phase = .setup ∧ t = setupStep s) ∨
    (s.phase = .iter ∧ s.ki.toNat < iterations ∧ t = iterStep s) ∨ (s.phase = .final ∧ t = finalStep s) := by
  unfold micro at h
  cases hp : s.phase <;> simp only [hp] at h
  · exact .inl ⟨rfl, by cases h; rfl⟩
  · exact .inr (.inl ⟨rfl, by cases h; rfl⟩)
  · split at h
    · exact .inr (.inr (.inl ⟨rfl, ‹_›, by cases h; rfl⟩))
    · cases h
  · exact .inr (.inr (.inr ⟨rfl, by cases h; rfl⟩))

/-- A micro-step stops only in ITER with KI out of range. -/
theorem micro_next {s : State} (h : s.phase = .iter → s.ki.toNat < iterations) : ∃ t, micro s = .next t := by
  unfold micro
  cases hp : s.phase
  · exact ⟨_, rfl⟩
  · exact ⟨_, rfl⟩
  · exact ⟨_, if_pos (h hp)⟩
  · exact ⟨_, rfl⟩

/-- The two ways SETUP ends (41 R133, R134). -/
theorem setupStep_cases (s : State) :
    (∃ c, setup (currentInstr s) s.a s.b = .fault c ∧ setupStep s = raise c s) ∨
    (∃ p v0 f0, setup (currentInstr s) s.a s.b = .start p v0 f0 ∧ setupStep s = start p v0 f0 s) := by
  unfold setupStep operandA operandB
  cases h : setup (currentInstr s) s.a s.b with
  | fault c => exact .inl ⟨c, rfl, rfl⟩
  | start p v0 f0 => exact .inr ⟨p, v0, f0, rfl, rfl⟩

/-- Every command has its meaning over the shared `runCommand`. -/
theorem exec_eq_runCommand (i : Instr) (s : State) : exec i s = runCommand i s := by
  cases i <;> rfl

theorem runCommand_idle {i : Instr} {s : State} (h : s.phase = .idle) : runCommand i s = .next (finish i (accept i s)) := by
  simp [runCommand, h]

theorem runCommand_busy {i : Instr} {s : State} (h : s.phase ≠ .idle) : runCommand i s = .next (dropWrite s) := by
  simp [runCommand, h]

/-- A command whose SETUP faults ends in the fault, and no ITER or FINAL runs (41 R134). -/
theorem finish_fault {i : Instr} {s : State} {c : Cause} (h : setup i s.a s.b = .fault c) : finish i s = raise c s := by
  simp only [finish, operandA, operandB, h]

/-- A command whose SETUP starts ends with the results of FINAL on the vector after the 32 steps (41 R138). -/
theorem finish_start {i : Instr} {s : State} {p : Vec} {v0 f0 : Option Word} (h : setup i s.a s.b = .start p v0 f0) :
    finish i s =
      let q := iterate i (v0.getD s.v) iterations p
      complete (final i q (f0.getD s.f) s.a)
        { start p v0 f0 s with x := q.x, y := q.y, z := q.z, ki := 32#6, phase := .final } := by
  simp only [finish, operandA, operandB, h, start_v, start_f, start_a]

/-- What a command that completes leaves, field by field, from any state in which it was accepted. -/
theorem finish_fields {i : Instr} {s : State} {p : Vec} {v0 f0 : Option Word} (h : setup i s.a s.b = .start p v0 f0) :
    let r := final i (iterate i (v0.getD s.v) iterations p) (f0.getD s.f) s.a
    let t := finish i s
    t.r0 = r.r0 ∧ t.r1 = r.r1.getD (Config.freeWord s.free) ∧ t.v = v0.getD s.v ∧ t.f = f0.getD s.f ∧
    t.a = s.a ∧ t.b = s.b ∧ t.func = s.func ∧ t.ovr = s.ovr ∧ t.rdata = s.rdata ∧ t.events = s.events ∧
    t.done = true ∧ t.err = false ∧ t.cause = .none ∧ t.phase = .idle := by
  rw [finish_start h]
  simp

/-- What a step that gives a next state did, by the oldest event. -/
theorem step_cases {s t : State} (h : step s = .next t) :
    (s.events = [] ∧ micro s = .next t) ∨
    ∃ e rest, s.events = e :: rest ∧
      ((∃ tr, e = .bus tr ∧ t = transact tr { s with events := rest }) ∨
       (e = .micro ∧ micro { s with events := rest } = .next t) ∨
       (∃ w i, e = .command w ∧ decode w = .legal i ∧ runCommand i { s with events := rest } = .next t) ∨
       (∃ w f, e = .command w ∧ decode w = .illegalCommand f ∧ t = writeCommand w { s with events := rest }) ∨
       (e = .poll ∧ t = poll { s with events := rest }) ∨
       (∃ dst, e = .copy dst ∧ t = copyLastRead dst { s with events := rest }) ∨
       (e = .reset ∧ t = hardReset { s with events := rest })) := by
  unfold step at h
  cases he : s.events with
  | nil => rw [he] at h; exact .inl ⟨rfl, h⟩
  | cons e rest =>
    rw [he] at h
    refine .inr ⟨e, rest, rfl, ?_⟩
    cases e with
    | bus tr => cases h; exact .inl ⟨tr, rfl, rfl⟩
    | micro => exact .inr (.inl ⟨rfl, h⟩)
    | command w =>
      cases hd : decode w with
      | legal i =>
        simp only [hd] at h
        exact .inr (.inr (.inl ⟨w, i, rfl, hd, by rw [← exec_eq_runCommand]; exact h⟩))
      | illegalCommand f =>
        simp only [hd] at h
        cases h
        exact .inr (.inr (.inr (.inl ⟨w, f, rfl, hd, rfl⟩)))
    | poll => cases h; exact .inr (.inr (.inr (.inr (.inl ⟨rfl, rfl⟩))))
    | copy dst => cases h; exact .inr (.inr (.inr (.inr (.inr (.inl ⟨dst, rfl, rfl⟩)))))
    | reset => cases h; exact .inr (.inr (.inr (.inr (.inr (.inr ⟨rfl, rfl⟩)))))

end Machine
end Sys2Proof
end

