-- ==== Sys2Proof/Laws/Safety.lean ====
section
/-! SUPPORT. OVR under transactions that come while the engine is busy, everything such a transaction can do, and how a run begins
with a step. -/

namespace Sys2Proof.Machine

@[simp] theorem ovrAfterEvent_micro (ovr : Bool) : ovrAfterEvent ovr .micro = ovr := rfl

@[simp] theorem ovrAfter_nil (ovr : Bool) : ovrAfter ovr [] = ovr := rfl

@[simp] theorem ovrAfter_cons (ovr : Bool) (e : Event) (es : List Event) :
    ovrAfter ovr (e :: es) = ovrAfter (ovrAfterEvent ovr e) es := rfl

/-- All that a write can do while the engine is busy: it changes OVR (41 R141). -/
theorem busWrite_busy {s : State} (h : s.phase ≠ .idle) (addr : BitVec 8) (w : Word) :
    busWrite addr w s = { s with ovr := ovrAfterEvent s.ovr (.bus ⟨true, addr, w⟩) } := by
  unfold busWrite ovrAfterEvent Addr.A Addr.B Addr.CMD Addr.STATUS
  by_cases h0 : addr = 0x00#8
  · simp [h0, writeA, h, dropWrite]
  by_cases h1 : addr = 0x01#8
  · simp [h1, writeB, h, dropWrite]
  by_cases h2 : addr = 0x02#8
  · simp [h2, writeCommand, h, dropWrite]
  by_cases h3 : addr = 0x03#8
  · subst h3
    rcases writeStatus_cases w s with ⟨hw, he⟩ | ⟨hw, he⟩ <;> simp only [he, hw] <;> rfl
  · simp [h0, h1, h2, h3]

/-- All that a transaction can do while the engine is busy: it delivers a word, may draw a free value, and changes OVR. -/
theorem transact_busy {s : State} (h : s.phase ≠ .idle) (tr : Transaction) :
    ∃ w n, transact tr s = { s with rdata := w, free := n, ovr := ovrAfterEvent s.ovr (.bus tr) } := by
  obtain ⟨we, addr, w⟩ := tr
  cases we with
  | false =>
    obtain ⟨w', n, he⟩ := answerRead_shape (readRegister addr s) s
    exact ⟨w', n, he⟩
  | true => exact ⟨s.rdata, s.free, busWrite_busy h addr w⟩

/-- A run of any machine whose first step goes on is the rest of the run from there. -/
theorem run_succ (M : Host.Core) {n : Nat} {s t : M.State} (h : M.step s = .next t) : M.run (n + 1) s = M.run n t := by
  simp only [Host.Core.run, h]

end Sys2Proof.Machine
end

