-- ==== Sys2Proof/Tests/Slice0.lean ====
section
/-! SUPPORT. The model's own tests, with expected values from the tables of spec/, and one witness for every statement that has
hypotheses. -/

namespace Sys2Proof.Tests

open Sys2Proof Sys2Proof.Machine Sys2Proof.Const

/-! ### Well-formedness and decoding (30 R84, R86; 95 §2.6) -/

/-- The check of a command word refuses a word with bit 3 set, one with bit 63 set, and the all-ones word. No command has a
field that could be ill-formed, so `Instr.wf` has nothing to refuse. -/
theorem test_wellFormed_refuses :
    legalCommandWord 0x0000000000000008#64 = false ∧ legalCommandWord 0x8000000000000000#64 = false ∧
    legalCommandWord 0xFFFFFFFFFFFFFFFF#64 = false ∧ legalCommandWord 0x0000000000000007#64 = true := by decide

theorem test_decode_sincos : decode 0b0000#64 = .legal .sincos := by decide
theorem test_decode_sin : decode 0b0001#64 = .legal .sin := by decide
theorem test_decode_cos : decode 0b0010#64 = .legal .cos := by decide
theorem test_decode_tan : decode 0b0011#64 = .legal .tan := by decide
theorem test_decode_asin : decode 0b0100#64 = .legal .asin := by decide
theorem test_decode_acos : decode 0b0101#64 = .legal .acos := by decide
theorem test_decode_atan : decode 0b0110#64 = .legal .atan := by decide
theorem test_decode_atan2 : decode 0b0111#64 = .legal .atan2 := by decide

/-- Illegal words keep only their low three bits (41 R131). -/
theorem test_decode_illegal :
    decode 0b1000#64 = .illegalCommand 0#3 ∧ decode 0xFFFFFFFFFFFFFFFF#64 = .illegalCommand 7#3 := by decide

theorem test_decodeTableWord :
    decodeTableWord 64 5 = some .acos ∧ decodeTableWord 64 8 = none ∧ decodeTableWord 8 7 = some .atan2 := by decide

/-! ### States for the tests -/

/-- An idle machine with operands. -/
def idleWith (a b : Word) : State := { State.reset with a := a, b := b }

/-- A machine whose next steps are the given events. -/
def withEvents (es : List Event) (s : State) : State := { s with events := es }

/-- What a host can read at the end of a command: CAUSE, R0 and R1 (`none` is UNSPEC). -/
def outcome (o : Host.Outcome State Fault Refusal) : Option (Cause × Option Word × Option Word) :=
  match o with
  | .next t => some (t.cause, readRegister Addr.R0 t, readRegister Addr.R1 t)
  | .fault _ => none
  | .refused _ => none

/-! ### One step of each command (the corner-case tables of 42, 43 and 44) -/

theorem test_sincos_zero :
    outcome (exec .sincos (idleWith 0#64 0#64)) = some (.none, some 1#64, some 0x0000000100000003#64) := by
  decide +kernel

theorem test_sincos_sixth_of_pi :
    outcome (exec .sincos (idleWith 0x00000000860A91C1#64 0#64)) =
      some (.none, some 0x000000007FFFFFFD#64, some 0x00000000DDB3D743#64) := by decide +kernel

theorem test_sin_sixth_of_pi :
    outcome (exec .sin (idleWith 0x00000000860A91C1#64 0#64)) = some (.none, some 0x000000007FFFFFFD#64, none) := by
  decide +kernel

/-- The most negative angle (42 R171). -/
theorem test_sin_min : outcome (exec .sin (idleWith MIN 0#64)) = some (.none, some (W 4237307142), none) := by
  decide +kernel

theorem test_cos_sixth_of_pi :
    outcome (exec .cos (idleWith 0x00000000860A91C1#64 0#64)) = some (.none, some 0x00000000DDB3D743#64, none) := by
  decide +kernel

theorem test_cos_min : outcome (exec .cos (idleWith MIN 0#64)) = some (.none, some (W 701407322), none) := by
  decide +kernel

theorem test_tan_past_half_pi :
    outcome (exec .tan (idleWith 0x00000001921FB56C#64 0#64)) = some (.none, some MAX, none) := by decide +kernel

theorem test_tan_quotient :
    outcome (exec .tan (idleWith 0x00000001921FB576#64 0#64)) = some (.none, some 0xFA6F4DE9BD37A6F5#64, none) := by
  decide +kernel

theorem test_asin_minus_half :
    outcome (exec .asin (idleWith 0xFFFFFFFF80000000#64 0#64)) =
      some (.none, some 0xFFFFFFFD61CB2737#64, some 0xFFFFFFFF79F56E40#64) := by decide +kernel

theorem test_asin_domain :
    outcome (exec .asin (idleWith 0x0000000100000001#64 0#64)) = some (.domain, none, none) := by decide +kernel

theorem test_acos_past_pi :
    outcome (exec .acos (idleWith 0xFFFFFFFF00C00000#64 0#64)) =
      some (.none, some 0xFFFFFFFCC826CDE2#64, some 0x0000000337D9321E#64) := by decide +kernel

theorem test_acos_domain :
    outcome (exec .acos (idleWith 0xFFFFFFFEFFFFFFFF#64 0#64)) = some (.domain, none, none) := by decide +kernel

theorem test_atan_minus_one_raw :
    outcome (exec .atan (idleWith 0xFFFFFFFFFFFFFFFF#64 0#64)) =
      some (.none, some 0xFFFFFFFCDBC09583#64, some 0x000000000000000C#64) := by decide +kernel

theorem test_atan_min :
    outcome (exec .atan (idleWith MIN 0#64)) =
      some (.none, some 0xFFFFFFFE6DE04AD4#64, some 0x00000001921FB55D#64) := by decide +kernel

theorem test_atan2_wrapping_quotient :
    outcome (exec .atan2 (idleWith MAX 1#64)) = some (.none, some 0x000000025B2F8FFF#64, none) := by decide +kernel

theorem test_atan2_vertical :
    outcome (exec .atan2 (idleWith NEG_ONE 0#64)) = some (.none, some 0xFFFFFFFE6DE04AAB#64, none) := by decide +kernel

/-- The host's check: the encoded command is the first step after reset. -/
theorem test_withFetchWord : step (State.reset.withFetchWord 64 3) = exec .tan State.reset := rfl

/-- 60 R217: an illegal word reports ILLEGAL_CMD whatever the operands; STATUS is 0x34 for the word 8 (60 R214). -/
theorem test_illegal_word : statusWord (busWrite Addr.CMD 8#64 State.reset) = 0x0000000000000034#64 := by decide

/-- The sums of the raw table words (95 §2.7), as a check on every bit of the transcription. -/
theorem test_rom_sums :
    ((List.range 32).map fun k => S (Rom.angle60 k)).sum = 2009872632899084728 ∧
    ((List.range 32).map fun k => S (Rom.cos60 k)).sum = 36387766354823887673 ∧
    ((List.range 32).map fun k => S (Rom.cos k)).sum = 135554992965 := by decide +kernel

/-! ### Witnesses: states and operands that meet the hypotheses of the statements -/

theorem witness_EncodeThenDecode : Instr.wf .tan = true := rfl

theorem witness_LegalWordsAreTheEncodings :
    (0x0000000000000007#64).extractLsb' 3 61 = 0#61 ∧ (0x0000000000000008#64).extractLsb' 3 61 ≠ 0#61 ∧
    State.reset.phase = .idle := by decide

theorem witness_StepRunsTheDecodedCommand :
    (withEvents [.command 5#64] State.reset).events = .command 5#64 :: [] ∧ decode 5#64 = .legal .acos := by decide

theorem witness_StepTakesTheOldestEvent :
    State.reset.events = [] ∧ State.reset.phase = .idle ∧
    (withEvents [.bus ⟨true, 0#8, 1#64⟩] State.reset).events = .bus ⟨true, 0#8, 1#64⟩ :: [] ∧
    (withEvents [.micro] State.reset).events = .micro :: [] ∧
    (withEvents [.command 8#64] State.reset).events = .command 8#64 :: [] ∧ decode 8#64 = .illegalCommand 0#3 ∧
    (withEvents [.reset] State.reset).events = .reset :: [] ∧
    (withEvents [.poll] State.reset).events = .poll :: [] ∧ (withEvents [.poll] State.reset).phase = .idle ∧
    (withEvents [.poll] (accept .tan State.reset)).events = .poll :: [] ∧
    (withEvents [.poll] (accept .tan State.reset)).phase ≠ .idle ∧
    (withEvents [.copy 0x01#8] State.reset).events = .copy 0x01#8 :: [] := by decide

/-- The operand of the worked example, the operand 0, and an operand one period above it. -/
theorem witness_SincosCompletes :
    (idleWith 0x00000000860A91C1#64 0#64).phase = .idle ∧
    (idleWith 0#64 0#64).phase = .idle ∧ (idleWith 0#64 0#64).a = 0#64 ∧
    (idleWith TWO_PI 0#64).phase = .idle ∧
    S (idleWith TWO_PI 0#64).a = S (idleWith 0#64 0#64).a + S TWO_PI := by decide

theorem witness_SinCompletes :
    (idleWith 0x00000000860A91C1#64 0#64).phase = .idle ∧
    exec .sincos (idleWith 0x00000000860A91C1#64 0#64) =
      .next (finish .sincos (accept .sincos (idleWith 0x00000000860A91C1#64 0#64))) :=
  ⟨rfl, by rw [exec_eq_runCommand, runCommand_idle rfl]⟩

theorem witness_CosCompletes :
    (idleWith 0x00000000860A91C1#64 0#64).phase = .idle ∧
    exec .sincos (idleWith 0x00000000860A91C1#64 0#64) =
      .next (finish .sincos (accept .sincos (idleWith 0x00000000860A91C1#64 0#64))) :=
  witness_SinCompletes

/-- The sine and the cosine that TAN forms of an angle. -/
def tanParts (θ : Word) : Word × Word :=
  let q := iterate .tan 0#64 32 ⟨ONE, ZERO, (reduce θ).1⟩
  (Fixed.mul q.y (reduce θ).2, Fixed.mul q.x (reduce θ).2)

/-- The parts of HALF_PI, of -HALF_PI and of HALF_PI - 50 raw (42 R169): each of the three clauses. -/
theorem witness_TanCompletes :
    (tanParts HALF_PI = (W 4294967298, W (-2)) ∧ S (Fixed.abs (W (-2))) ≤ 43 ∧ 0 < S (W 4294967298)) ∧
    (tanParts 0xFFFFFFFE6DE04ABC#64 = (W (-4294967299), W (-4)) ∧ S (Fixed.abs (W (-4))) ≤ 43 ∧
      ¬ 0 < S (W (-4294967299))) ∧
    (tanParts 0x00000001921FB512#64 = (ONE, W 50) ∧ 43 < S (Fixed.abs (W 50))) := by decide +kernel

/-- Both ends of the domain; ONE leaves Z positive and NEG_ONE negative. -/
theorem witness_AsinCompletes :
    (-4294967296 ≤ S ONE ∧ S ONE ≤ 4294967296 ∧ 0 < S (iterate .asin ONE 32 ⟨ONE, ZERO, ZERO⟩).z) ∧
    (-4294967296 ≤ S NEG_ONE ∧ S NEG_ONE ≤ 4294967296 ∧
      ¬ 0 < S (iterate .asin NEG_ONE 32 ⟨ONE, ZERO, ZERO⟩).z) := by decide +kernel

theorem witness_AcosCompletes :
    (idleWith ONE 0#64).phase = .idle ∧ -4294967296 ≤ S ONE ∧ S ONE ≤ 4294967296 ∧
    -4294967296 ≤ S NEG_ONE ∧ S NEG_ONE ≤ 4294967296 := by decide

theorem witness_AtanCompletes :
    (idleWith ZERO 0#64).phase = .idle ∧ 0 < S (iterate .atan ZERO 32 ⟨ONE, ZERO, ZERO⟩).z ∧
    ¬ 0 < S (iterate .atan NEG_ONE 32 ⟨ONE, ZERO, ZERO⟩).z := by decide +kernel

/-- y negative and y zero, a zero and a nonzero denominator, Z positive and negative. -/
theorem witness_Atan2Completes :
    (¬ (NEG_ONE = 0#64 ∧ 0#64 = 0#64) ∧ S NEG_ONE < 0) ∧ (¬ (0#64 = 0#64 ∧ ONE = 0#64) ∧ ¬ S 0#64 < 0) ∧
    0 < S (iterate .atan2 MAX 32 ⟨ONE, ZERO, ZERO⟩).z ∧
    ¬ 0 < S (iterate .atan2 (W (Int.tdiv (S NEG_ONE * 2 ^ 32) (S ONE))) 32 ⟨ONE, ZERO, ZERO⟩).z := by decide +kernel

theorem witness_FaultingOperands :
    (idleWith 0x0000000100000001#64 0#64).phase = .idle ∧ 4294967296 < S 0x0000000100000001#64 ∧
    S 0xFFFFFFFEFFFFFFFF#64 < -4294967296 ∧ (idleWith 0#64 0#64).a = 0#64 ∧ (idleWith 0#64 0#64).b = 0#64 := by decide

theorem witness_CommandWhileBusyIsDropped : (accept .tan State.reset).phase ≠ .idle := by decide

theorem witness_RotationStep : Instr.isRotation .tan = true ∧ 0 < S 1#64 ∧ S 0#64 ≤ 0 := by decide

/-- Both directions for each condition, and the multiply's intervals at their ends. -/
theorem witness_VectoringStep :
    (Instr.isRotation .asin = false ∧ (0 < S ONE ∧ S ZERO < S 1#64) ∧ ¬ (0 < S ONE ∧ S ZERO < S ZERO) ∧ ¬ S ONE < 0) ∧
    (Instr.isRotation .acos = false ∧ (0 < S ONE ∧ S NEG_ONE < S ZERO) ∧ ¬ S ZERO < S ZERO) ∧
    (Instr.isRotation .atan = false ∧ S ZERO < S (Fixed.smul 1#64 ONE) ∧ ¬ S ZERO < S (Fixed.smul ZERO ONE)) ∧
    (S (Fixed.mul 1#64 (Rom.cos 16)) = 0 ∧ S (Fixed.mul ONE (Rom.cos 29)) = S ONE - 1 ∧
      S (Fixed.mul (W (-4294967295)) (Rom.cos 29)) = -4294967295 ∧ S (Fixed.mul 0#64 (Rom.cos 16)) = 0 ∧
      S (Fixed.mul (W 4294967297) (Rom.cos 16)) = 4294967295 ∧
      S (Fixed.mul (W 8589934592) (Rom.cos 29)) = 8589934590) := by decide +kernel

/-- The remainders on both sides of each boundary of the reduction. -/
theorem witness_ReductionByIntervals :
    S HALF_PI % 26986075410 = 6746518852 ∧ S 0x00000001921FB545#64 % 26986075410 = 6746518853 ∧
    S 0x00000004B65F1FCC#64 % 26986075410 = 20239556556 ∧ S THREE_HALF_PI % 26986075410 = 20239556557 := by decide

theorem witness_RotationIsExactlyPeriodic :
    Instr.isRotation .sin = true ∧ S MAX = S (W (S MAX - 26986075410)) + 1 * 26986075410 := by decide

theorem witness_RotationResidualIsSmall : Instr.isRotation .cos = true ∧ (32 : Nat) ≤ 32 := by decide

theorem witness_RotationVectorStaysBounded : Instr.isRotation .sincos = true ∧ (32 : Nat) ≤ 32 := by decide

/-- A tangent that divides: the operand 0. -/
theorem witness_TangentQuotientNeverWraps :
    43 < S (Fixed.abs (cosine (iterate .tan 0#64 32 ⟨ONE, ZERO, (reduce 0#64).1⟩) (reduce 0#64).2)) := by decide +kernel

theorem witness_VectoringAngleStaysBounded :
    setup .acos NEG_ONE 0#64 = .start ⟨ZERO, ONE, HALF_PI⟩ (some NEG_ONE) none ∧
    setup .atan2 1#64 0#64 = .start ⟨ONE, ZERO, ZERO⟩ (some MAX) none := by decide

theorem witness_VectoringVectorStaysBounded :
    setup .atan MIN 0#64 = .start ⟨ONE, ZERO, ZERO⟩ (some MIN) none ∧
    setup .asin ONE 0#64 = .start ⟨ONE, ZERO, ZERO⟩ (some ONE) none := by decide

theorem witness_Atan2SelectsAnAtanCandidate :
    ¬ (1#64 = 0#64 ∧ 0#64 = 0#64) ∧ ¬ (NEG_ONE = 0#64 ∧ ONE = 0#64) := by decide

theorem witness_ShiftAndNarrowRoundDown :
    (31 : Nat) ≤ 31 ∧ Fixed.asr 0xFFFFFFFFFFFFFFFF#64 31 = 0xFFFFFFFFFFFFFFFF#64 := by decide

/-- A quotient of each sign, and a divisor of each sign. -/
theorem witness_DividerInHardwareTerms :
    S NEG_ONE ≠ 0 ∧ S ONE ≠ 0 ∧ (0 < S ONE ∧ S NEG_ONE < 0) ∧ Int.tdiv (S ONE * 2 ^ 32) (S NEG_ONE) ≠ 0 := by decide

/-- A product below, above and inside the range of a word. -/
theorem witness_SaturatingMultiplyClamps :
    S MIN * S 0x0000000200000000#64 / 2 ^ 32 < -2 ^ 63 ∧ 2 ^ 63 - 1 < S MIN * S NEG_ONE / 2 ^ 32 ∧
    -2 ^ 63 ≤ S MIN * S ONE / 2 ^ 32 ∧ S MIN * S ONE / 2 ^ 32 ≤ 2 ^ 63 - 1 := by decide

/-- Equal products out of range: the state of affairs that refutes the statement. -/
theorem witness_MultipliesAgreeOnlyInRange :
    Fixed.mul 0x0000000300000004#64 0x7FFFFFFF55555556#64 = Fixed.smul 0x0000000300000004#64 0x7FFFFFFF55555556#64 ∧
    2 ^ 63 - 1 < S 0x0000000300000004#64 * S 0x7FFFFFFF55555556#64 / 2 ^ 32 := by decide

theorem witness_RemainderHasTheSignOfTheDividend : S TWO_PI ≠ 0 ∧ 0 ≤ S MAX ∧ S MIN ≤ 0 ∧ S NEG_ONE ≠ 0 := by decide

theorem witness_HostAddressMap :
    ({ State.reset with done := true, func := 6#3 }).done = true ∧ State.reset.done = false ∧
    ({ State.reset with done := true, func := 7#3 }).func = 7#3 ∧ State.reset.phase = .idle ∧
    (accept .sin State.reset).phase ≠ .idle ∧ (8#64).getLsbD 3 = true ∧ (7#64).getLsbD 3 = false ∧
    readRegister 0x41#8 State.reset = some (Rom.cos60 0) ∧ readRegister 0x7F#8 State.reset = some (Rom.cos60 31) ∧
    readRegister 0x3F#8 State.reset = some 0#64 ∧ readRegister 0x81#8 State.reset = some 0#64 := by decide

theorem witness_WritesWhileBusy :
    (accept .sin State.reset).phase ≠ .idle ∧
    step (withEvents [.bus ⟨true, 0x03#8, 8#64⟩] { State.reset with ovr := true }) = .next State.reset ∧
    State.reset.ovr = false := ⟨by decide, rfl, rfl⟩

/-- A machine that has accepted a command meets the invariant and is busy. -/
theorem accepted_inv (i : Instr) : (accept i State.reset).Inv where
  flags := ⟨fun _ => rfl, fun _ => rfl, fun _ => rfl, by simp [State.reset]⟩
  index := ⟨fun h => by simp at h, fun h => by simp at h⟩
  pipeline := fun h => by simp at h

theorem witness_ReadsWhileBusy : (accept .cos State.reset).Inv ∧ (accept .cos State.reset).phase ≠ .idle :=
  ⟨accepted_inv .cos, by decide⟩

theorem witness_StatusWordFields : (accept .cos State.reset).Inv ∧ (accept .cos State.reset).err = false :=
  ⟨accepted_inv .cos, rfl⟩

/-- A completed command, and a read of R0 as the next event. -/
theorem witness_ResultsLastUntilTheNextCommand :
    (withEvents [.bus ⟨false, 0x04#8, 0#64⟩] { State.reset with done := true, r0 := 5#64 }).phase = .idle ∧
    step (withEvents [.bus ⟨false, 0x04#8, 0#64⟩] { State.reset with done := true, r0 := 5#64 }) =
      .next { State.reset with done := true, r0 := 5#64, rdata := 5#64 } := ⟨rfl, rfl⟩

theorem witness_CommandDecode :
    State.reset.phase = .idle ∧ (7#64).extractLsb' 3 61 = 0#61 ∧ (8#64).extractLsb' 3 61 ≠ 0#61 ∧
    (accept .sin State.reset).phase ≠ .idle := by decide

/-- A SETUP that starts and a SETUP that faults. -/
theorem witness_SetupMicroStep :
    (accept .atan (idleWith ONE 0#64)).phase = .setup ∧
    setup .atan ONE 0#64 = .start ⟨ONE, ZERO, ZERO⟩ (some ONE) none ∧
    setup .asin 0x0000000100000001#64 0#64 = .fault .domain ∧ setup .atan2 0#64 0#64 = .fault .zeroVector := by decide

theorem witness_IterMicroStep :
    ({ State.reset with phase := .iter, ki := 31#6 }).phase = .iter ∧ (31#6).toNat < 32 ∧ (0#6).toNat < 32 ∧
    (0#6) ≠ 31#6 := by decide

/-- A FINAL with two results, and one with a single result. -/
theorem witness_FinalMicroStep :
    ({ State.reset with phase := .final, func := 0#3 }).phase = .final ∧
    (final .sincos ⟨ONE, ZERO, ZERO⟩ ONE ZERO).r1 = some ONE ∧ (final .sin ⟨ONE, ZERO, ZERO⟩ ONE ZERO).r1 = none := by
  decide

theorem witness_PhaseTransitions :
    micro State.reset = .next State.reset ∧
    micro (accept .atan (idleWith ONE 0#64)) = .next (setupStep (accept .atan (idleWith ONE 0#64))) ∧
    micro { State.reset with phase := .iter } = .next (iterStep { State.reset with phase := .iter }) ∧
    micro { State.reset with phase := .final } = .next (finalStep { State.reset with phase := .final }) ∧
    (3#64).extractLsb' 3 61 = 0#61 := ⟨rfl, rfl, rfl, rfl, by decide⟩

/-- A write before FINAL, and after it. -/
theorem witness_DroppedWriteDisturbsNothing :
    ({ State.reset with phase := .final }).phase ≠ .idle ∧
    micro { State.reset with phase := .final } = .next (finalStep { State.reset with phase := .final }) ∧
    (finalStep { State.reset with phase := .final }).phase = .idle ∧ decode 1#64 = .legal .sin :=
  ⟨by decide, rfl, rfl, by decide⟩

theorem witness_FatalCommandsReportTheirStatus :
    (idleWith 0x0000000200000000#64 0#64).phase = .idle ∧ (idleWith 0x0000000200000000#64 0#64).ovr = false ∧
    4294967296 < S 0x0000000200000000#64 ∧ S 0xFFFFFFFE00000000#64 < -4294967296 ∧
    (idleWith 0#64 0#64).a = 0#64 ∧ (idleWith 0#64 0#64).b = 0#64 ∧ (8#64).extractLsb' 3 61 ≠ 0#61 := by decide

theorem witness_ResetInAnyState :
    (withEvents [.reset] (accept .tan State.reset)).events = .reset :: [] ∧
    (withEvents [.reset] (accept .tan State.reset)).phase = .setup := by decide

theorem witness_UnspecifiedWordsAreFreeValues :
    readRegister Addr.R0 State.reset = none ∧
    (currentInstr { State.reset with phase := .final, func := 1#3 }).hasPair = false ∧
    micro { State.reset with phase := .final, func := 1#3 } =
      .next (finalStep { State.reset with phase := .final, func := 1#3 }) ∧
    step (withEvents [.reset] State.reset) = .next (hardReset State.reset) := ⟨by decide, by decide, rfl, rfl⟩

theorem witness_InvariantKeptByEveryStep :
    (accept .atan State.reset).Inv ∧ step (accept .atan State.reset) = .next (setupStep (accept .atan State.reset)) :=
  ⟨accepted_inv .atan, rfl⟩

/-- A machine in the middle of a command, after SETUP, meets the invariant too. -/
theorem witness_NoStepStops : (setupStep (accept .atan State.reset)).Inv where
  flags := ⟨fun _ => rfl, fun _ => rfl, fun _ => rfl, by
    have h : (setupStep (accept .atan State.reset)).err = false ∧
        (setupStep (accept .atan State.reset)).cause = .none := ⟨rfl, rfl⟩
    simp [h.1, h.2]⟩
  index := ⟨fun _ => by decide, fun h => by cases h⟩
  pipeline := fun _ => ⟨⟨ONE, ZERO, ZERO⟩, some 0#64, none, rfl, fun _ h => Option.some.inj h, (fun _ h => nomatch h), rfl⟩

theorem witness_AtMostOneOfBusyDoneErr :
    Sys2Proof.core.run 1 (withEvents [.bus ⟨true, 0x02#8, 8#64⟩] State.reset) =
      .next (rejectCommand 0#3 State.reset) := rfl

theorem witness_MicroStepsRefineTheCommand :
    (withEvents [.bus (commandTransaction .atan)] (idleWith ONE 0#64)).phase = .idle ∧
    (withEvents [.bus (commandTransaction .atan)] (idleWith ONE 0#64)).events = [.bus (commandTransaction .atan)] :=
  ⟨rfl, rfl⟩

/-- Transactions that come before the first micro-step: a dropped write of A, a STATUS read and a STATUS write that clears
nothing. -/
def early : List Event := [.bus ⟨true, 0x00#8, 7#64⟩, .bus ⟨false, 0x03#8, 0#64⟩, .bus ⟨true, 0x03#8, 7#64⟩]

/-- A command with a result and the first 33 micro-steps, one that faults, and what the transactions make of OVR. -/
theorem witness_InterleavingCannotChangeTheResult :
    (let s := withEvents (.bus (commandTransaction .atan) :: (early ++ List.replicate 33 .micro) ++ .micro :: []) (idleWith NEG_ONE 0#64)
     s.phase = .idle ∧ s.events = .bus (commandTransaction .atan) :: (early ++ List.replicate 33 .micro) ++ .micro :: []) ∧
    (∀ e ∈ early ++ List.replicate 33 Event.micro, e = .micro ∨ ∃ tr, e = .bus tr) ∧
    (early ++ List.replicate 33 Event.micro).count .micro = 33 ∧ early.count .micro = 0 ∧
    answer .atan NEG_ONE 0#64 = .result ⟨0xFFFFFFFF36F02576#64, some 0x000000025B2F8FFF#64⟩ ∧
    answer .atan2 0#64 0#64 = .fault .zeroVector ∧
    (∀ w, w.getLsbD 3 = true → .bus ⟨true, Addr.STATUS, w⟩ ∉ early) ∧ ovrAfter false early = true := by
  refine ⟨⟨rfl, rfl⟩, ?_, by decide, by decide, by decide +kernel, by decide +kernel, ?_, by decide⟩
  · intro e he
    rcases List.mem_append.mp he with he | he
    · simp only [early, List.mem_cons, List.not_mem_nil, or_false] at he
      rcases he with rfl | rfl | rfl <;> exact .inr ⟨_, rfl⟩
    · exact .inl (List.eq_of_mem_replicate he)
  · intro w hw he
    simp only [early, Addr.STATUS, List.mem_cons, List.not_mem_nil, or_false, Event.bus.injEq, Transaction.mk.injEq] at he
    rcases he with he | he | he
    · exact absurd he.2.1 (by decide)
    · exact absurd he.1 (by decide)
    · rw [he.2.2] at hw; exact absurd hw (by decide)

theorem witness_FixedStepCount :
    (idleWith 0x0000000200000000#64 0#64).phase = .idle ∧ (idleWith 0x0000000200000000#64 0#64).events = [] ∧
    setup .asin 0x0000000200000000#64 0#64 = .fault .domain ∧
    setup .asin ONE 0#64 = .start ⟨ONE, ZERO, ZERO⟩ (some ONE) none ∧ (34 : Nat) ≤ 34 := by decide

theorem witness_MeaningGivesTheAnswer :
    (idleWith 0#64 0#64).phase = .idle ∧ answer .atan2 0#64 0#64 = .fault .zeroVector ∧
    answer .atan NEG_ONE 0#64 = .result ⟨0xFFFFFFFF36F02576#64, some 0x000000025B2F8FFF#64⟩ := by decide +kernel

/-- Two idle machines with the same operand A and everything else that may differ different. -/
theorem witness_OutcomeDependsOnOperandsOnly :
    let s := idleWith ONE 0#64
    let s' := { idleWith ONE 9#64 with x := 3#64, v := 4#64, r0 := 5#64, ovr := true, err := true, cause := .domain, ki := 9#6 }
    s.phase = .idle ∧ s'.phase = .idle ∧ s.a = s'.a ∧ (Instr.tan = .atan2 → s.b = s'.b) ∧
    exec .tan s = .next (finish .tan (accept .tan s)) ∧ exec .tan s' = .next (finish .tan (accept .tan s')) :=
  ⟨rfl, rfl, rfl, (fun h => nomatch h), by rw [exec_eq_runCommand, runCommand_idle rfl],
    by rw [exec_eq_runCommand, runCommand_idle rfl]⟩

/-- A completing and a faulting operand. -/
theorem witness_WaitTerminates :
    (withEvents (immediateForm .asin ONE) State.reset).phase = .idle ∧
    (withEvents (immediateForm .asin ONE) State.reset).events = immediateForm .asin ONE ∧
    answer .asin 0x0000000200000000#64 State.reset.b = .fault .domain := by decide +kernel

end Sys2Proof.Tests
end

section
/-! PROOFS. The family of spec/00_scope.md: a command's readable outcome is a function of the function code and the operands
alone (O59). -/

namespace Sys2Proof.Machine

/-! ### What SETUP reads and which of V and F it writes -/

/-- SETUP reads operand B in ATAN2 alone (10 R21, 42 R161). -/
theorem setup_congr_b {i : Instr} {b b' : Word} (h : i = .atan2 → b = b') (a : Word) : setup i a b = setup i a b' := by
  cases i with
  | atan2 => rw [h rfl]
  | sincos | sin | cos | tan | asin | acos | atan => rfl

/-- A rotation-mode SETUP writes F and not V (10 R24, R25). -/
theorem setup_start_of_rotation {i : Instr} (hi : i.isRotation = true) {a b : Word} {p : Vec} {v0 f0 : Option Word}
    (h : setup i a b = .start p v0 f0) : v0 = none ∧ ∃ f, f0 = some f := by
  rw [setup_rotation hi, setupRotation] at h
  cases h
  exact ⟨rfl, _, rfl⟩

/-- A vectoring-mode SETUP that starts writes V and not F (10 R24, R25). -/
theorem setup_start_of_vectoring {i : Instr} (hi : i.isRotation = false) {a b : Word} {p : Vec} {v0 f0 : Option Word}
    (h : setup i a b = .start p v0 f0) : (∃ v, v0 = some v) ∧ f0 = none := by
  cases i with
  | sincos | sin | cos | tan => cases hi
  | asin => simp only [setup, setupAsin] at h; split at h <;> cases h; exact ⟨⟨_, rfl⟩, rfl⟩
  | acos => simp only [setup, setupAcos] at h; split at h <;> cases h; exact ⟨⟨_, rfl⟩, rfl⟩
  | atan => cases h; exact ⟨⟨_, rfl⟩, rfl⟩
  | atan2 => simp only [setup, setupAtan2] at h; split at h <;> cases h; exact ⟨⟨_, rfl⟩, rfl⟩

/-! ### What FINAL reads and writes -/

/-- FINAL of a vectoring-mode command does not read F (10 R25). -/
theorem final_vectoring {i : Instr} (hi : i.isRotation = false) (p : Vec) (f f' a : Word) :
    final i p f a = final i p f' a := by
  cases i with
  | sincos | sin | cos | tan => cases hi
  | asin | acos | atan | atan2 => rfl

/-- FINAL gives a second result exactly for the commands that have one (10 R22, 41 R137). -/
theorem final_r1_isSome (i : Instr) (p : Vec) (f a : Word) : (final i p f a).r1.isSome = i.hasPair := by
  cases i with
  | asin => simp only [final, finalAsin]; split <;> rfl
  | sincos | sin | cos | tan | acos | atan | atan2 => rfl

/-! ### The answer of a command, and the state it leaves -/

/-- The answer is the fault of SETUP (41 R134). -/
theorem answer_of_fault {i : Instr} {a b : Word} {c : Cause} (h : setup i a b = .fault c) : answer i a b = .fault c := by
  simp only [answer, h]

/-- Whatever V and F held before SETUP, the pipeline computes the answer: rotation mode sets F and does not read V, vectoring
mode sets V and does not read F (10 R34). -/
theorem answer_of_start {i : Instr} {a b : Word} {p : Vec} {v0 f0 : Option Word} (h : setup i a b = .start p v0 f0)
    (v f : Word) : answer i a b = .result (final i (iterate i (v0.getD v) iterations p) (f0.getD f) a) := by
  simp only [answer, h]
  cases hi : i.isRotation with
  | true =>
    obtain ⟨-, f1, rfl⟩ := setup_start_of_rotation hi h
    rw [iterate_rotation hi hi _ (v0.getD v)]
    rfl
  | false =>
    obtain ⟨⟨v1, rfl⟩, -⟩ := setup_start_of_vectoring hi h
    rw [final_vectoring hi _ _ (f0.getD f)]
    rfl

/-- A command whose SETUP faults leaves the fault and its frame (41 R134). -/
theorem finish_accept_faultedWith {i : Instr} {s : State} {c : Cause} (h : setup i s.a s.b = .fault c) :
    FaultedWith i c s (finish i (accept i s)) := by
  rw [finish_fault (s := accept i s) h]
  exact ⟨rfl, rfl, rfl, rfl, rfl, ⟨rfl, rfl, rfl, rfl, rfl⟩, rfl, rfl, rfl, rfl, rfl, rfl, rfl, rfl, rfl⟩

/-- A command whose SETUP starts completes (41 R137, R138). -/
theorem finish_accept_completedBy {i : Instr} {s : State} {p : Vec} {v0 f0 : Option Word}
    (h : setup i s.a s.b = .start p v0 f0) : CompletedBy i s (finish i (accept i s)) := by
  obtain ⟨-, -, hv, hf, ha, hb, hfunc, hovr, hrdata, hevents, hdone, herr, hcause, hphase⟩ :=
    finish_fields (s := accept i s) h
  refine ⟨hphase, hdone, herr, hcause, hfunc, ⟨ha, hb, hovr, hrdata, hevents⟩, fun hi => ?_, fun hi => ?_⟩
  · rw [hv, (setup_start_of_rotation hi h).1]; rfl
  · rw [hf, (setup_start_of_vectoring hi h).2]; rfl

/-- The result registers after a command that completes: the answer's R0, and its R1 or else a free value (41 R137; log 2). -/
theorem finish_accept_results {i : Instr} {s : State} {r : Results} (h : answer i s.a s.b = .result r) :
    (finish i (accept i s)).r0 = r.r0 ∧ (finish i (accept i s)).r1 = r.r1.getD (Config.freeWord s.free) ∧
    r.r1.isSome = i.hasPair := by
  cases hs : setup i s.a s.b with
  | fault c => rw [answer_of_fault hs] at h; cases h
  | start p v0 f0 =>
    rw [answer_of_start hs s.v s.f] at h
    cases h
    obtain ⟨hr0, hr1, -⟩ := finish_fields (s := accept i s) hs
    exact ⟨hr0, hr1, final_r1_isSome ..⟩

/-! ### Two runs of one command -/

theorem readRegister_R0 (s : State) : readRegister Addr.R0 s = if s.done then some s.r0 else none := rfl

theorem readRegister_R1 (s : State) :
    readRegister Addr.R1 s = if s.done && (currentInstr s).hasPair then some s.r1 else none := rfl

/-- One fault of one command looks the same to the host from any two states: neither result register is valid. -/
theorem FaultedWith.sameOutcome {i : Instr} {c : Cause} {s s' t t' : State} (h : FaultedWith i c s t)
    (h' : FaultedWith i c s' t') : SameOutcome t t' where
  phase_eq := h.phase_eq.trans h'.phase_eq.symm
  done_eq := h.done_eq.trans h'.done_eq.symm
  err_eq := h.err_eq.trans h'.err_eq.symm
  cause_eq := h.cause_eq.trans h'.cause_eq.symm
  func_eq := h.func_eq.trans h'.func_eq.symm
  r0_eq := by simp [readRegister_R0, h.done_eq, h'.done_eq]
  r1_eq := by simp [readRegister_R1, h.done_eq, h'.done_eq]

/-- Two completions of one command look the same to the host when they agree on R0, and on R1 where the command has a second
result. -/
theorem CompletedBy.sameOutcome {i : Instr} {s s' t t' : State} (h : CompletedBy i s t) (h' : CompletedBy i s' t')
    (hr0 : t.r0 = t'.r0) (hr1 : i.hasPair = true → t.r1 = t'.r1) : SameOutcome t t' where
  phase_eq := h.phase_eq.trans h'.phase_eq.symm
  done_eq := h.done_eq.trans h'.done_eq.symm
  err_eq := h.err_eq.trans h'.err_eq.symm
  cause_eq := h.cause_eq.trans h'.cause_eq.symm
  func_eq := h.func_eq.trans h'.func_eq.symm
  r0_eq := by simp [readRegister_R0, h.done_eq, h'.done_eq, hr0]
  r1_eq := by
    cases hp : i.hasPair with
    | true => simp [readRegister_R1, currentInstr, h.done_eq, h'.done_eq, h.func_eq, h'.func_eq, hp, hr1 hp]
    | false => simp [readRegister_R1, currentInstr, h.func_eq, h'.func_eq, hp]

/-- A command taken while idle ends in the state `finish` gives (41 R138). -/
theorem exec_idle {i : Instr} {s : State} (h : s.phase = .idle) : exec i s = .next (finish i (accept i s)) := by
  rw [exec_eq_runCommand, runCommand_idle h]

/-- Settles O59: SETUP reads only the operands, so both runs fault alike or both complete; and what they complete with is the
one `answer`, which no register that SETUP leaves alone can change. -/
theorem outcomeDependsOnOperandsOnly : Obligations.OutcomeDependsOnOperandsOnly := by
  intro i s s' t t' hs hs' ha hb ht ht'
  rw [exec_idle hs] at ht
  rw [exec_idle hs'] at ht'
  cases ht
  cases ht'
  have hsetup : setup i s'.a s'.b = setup i s.a s.b := by rw [← ha, setup_congr_b hb]
  cases h : setup i s.a s.b with
  | fault c => exact (finish_accept_faultedWith h).sameOutcome (finish_accept_faultedWith (hsetup.trans h))
  | start p v0 f0 =>
    have h' := hsetup.trans h
    have hans := answer_of_start h s.v s.f
    have hans' : answer i s'.a s'.b = answer i s.a s.b := by
      rw [answer_of_start h' s.v s.f, hans, ha]
    obtain ⟨hr0, hr1, hpair⟩ := finish_accept_results hans
    obtain ⟨hr0', hr1', -⟩ := finish_accept_results (hans'.trans hans)
    refine (finish_accept_completedBy h).sameOutcome (finish_accept_completedBy h') (hr0.trans hr0'.symm) fun hp => ?_
    obtain ⟨w, hw⟩ := Option.isSome_iff_exists.mp (hpair.trans hp)
    rw [hr1, hr1', hw, Option.getD_some, Option.getD_some]

end Sys2Proof.Machine
end

section
/-! PROOFS. The family of spec/10_state.md: the invariant at reset, along every step and along every run (O51, O52, O54), the
fields of STATUS (O39), the state after reset (O48), and the free values that stand for UNSPEC (O50). -/

namespace Sys2Proof.Machine

/-! ### The invariant of an idle machine -/

/-- While idle only the clauses on DONE, ERR and CAUSE say something. -/
theorem State.Inv.of_idle {s : State} (hp : s.phase = .idle) (hd : s.done = true → s.err = false)
    (hc : s.err = true ↔ s.cause ≠ .none) : s.Inv where
  flags := ⟨fun h => absurd hp h, fun h => absurd hp h, hd, hc⟩
  index := ⟨by simp [hp], by simp [hp]⟩
  pipeline := by simp [State.PipelineWf, hp]

/-- Settles O51: reset is idle, with every flag and CAUSE clear. -/
theorem invariantHoldsAtReset : Obligations.InvariantHoldsAtReset :=
  .of_idle rfl (fun _ => rfl) (by simp [State.reset])

/-- Reset as an event ends in the flags of the reset state (70 R240). -/
theorem hardReset_inv (s : State) : (hardReset s).Inv := .of_idle rfl (fun _ => rfl) (by simp)

/-- A fault with a fault code ends idle with ERR and CAUSE alone (60 R213). -/
theorem raise_inv {c : Cause} (hc : c ≠ .none) (s : State) : (raise c s).Inv :=
  .of_idle rfl (by simp) (by simp [hc])

theorem rejectCommand_inv (func : BitVec 3) (s : State) : (rejectCommand func s).Inv :=
  raise_inv (by decide) { s with func := func }

/-- FINAL ends idle with DONE alone (41 R137). -/
theorem complete_inv (r : Results) (s : State) : (complete r s).Inv := .of_idle rfl (by simp) (by simp)

/-! ### What keeps the invariant while busy -/

/-- OVR and the fields of the host and of the model enter no clause of the invariant. -/
theorem State.Inv.withHostFields {s : State} (h : s.Inv) (ovr : Bool) (n : Nat) (w : Word) (es : List Event) :
    State.Inv { s with ovr := ovr, free := n, rdata := w, events := es } where
  flags := ⟨h.flags.busy_not_done, h.flags.busy_not_err, h.flags.done_not_err, h.flags.err_iff_cause⟩
  index := ⟨h.index.iter_index, h.index.final_index⟩
  pipeline := h.pipeline

/-- An accepted command waits for SETUP with every flag and CAUSE clear (41 R131). -/
theorem accept_inv (i : Instr) (s : State) : (accept i s).Inv where
  flags := ⟨by simp, by simp, by simp, by simp⟩
  index := ⟨by simp, by simp⟩
  pipeline := by simp [State.PipelineWf]

/-- SETUP that starts begins the pipeline with no step done (41 R133). -/
theorem start_inv {s : State} {p : Vec} {v0 f0 : Option Word} (h : s.FlagsWf) (hp : s.phase ≠ .idle)
    (hs : setup (currentInstr s) s.a s.b = .start p v0 f0) : (start p v0 f0 s).Inv where
  flags := ⟨fun _ => h.busy_not_done hp, fun _ => h.busy_not_err hp, h.done_not_err, h.err_iff_cause⟩
  index := ⟨fun _ => by simp [iterations_eq], by simp⟩
  pipeline := fun _ => ⟨p, v0, f0, hs, fun w hw => by simp [hw], fun w hw => by simp [hw], rfl⟩

/-- The only causes of SETUP are DOMAIN and ZERO_VECTOR (60 R211). -/
theorem setup_fault_ne_none {i : Instr} {a b : Word} {c : Cause} (h : setup i a b = .fault c) : c ≠ .none := by
  cases i with
  | sincos | sin | cos | tan | atan => cases h
  | asin => simp only [setup, setupAsin] at h; split at h <;> cases h; decide
  | acos => simp only [setup, setupAcos] at h; split at h <;> cases h; decide
  | atan2 => simp only [setup, setupAtan2] at h; split at h <;> cases h; decide

theorem setupStep_inv {s : State} (h : s.FlagsWf) (hp : s.phase ≠ .idle) : (setupStep s).Inv := by
  rcases setupStep_cases s with ⟨c, hs, he⟩ | ⟨p, v0, f0, hs, he⟩ <;> rw [he]
  · exact raise_inv (setup_fault_ne_none hs) s
  · exact start_inv h hp hs

/-- KI counts the ITER step just done: its six bits do not wrap below 32 (41 R136). -/
theorem toNat_succ_of_lt_iterations {k : BitVec 6} (h : k.toNat < iterations) : (k + 1#6).toNat = k.toNat + 1 := by
  rw [iterations_eq] at h
  bv_omega

/-- ITER goes to FINAL exactly after the step with index 31 (41 R136). -/
theorem advance_indexWf {s : State} (hk : s.ki.toNat < iterations) (p : Vec) : (advance p s).IndexWf where
  iter_index h := by
    have hne : s.ki ≠ 31#6 := fun h' => by simp [h'] at h
    rw [iterations_eq] at hk ⊢
    rw [advance_ki]
    bv_omega
  final_index h := by
    have heq : s.ki = 31#6 := by by_contra h'; simp [h'] at h
    simp [heq, iterations_eq]

/-- One more ITER step takes the vector after KI steps to the vector after KI + 1 steps (41 R135). -/
theorem iterStep_inv {s : State} (h : s.Inv) (hp : s.phase = .iter) : (iterStep s).Inv where
  flags :=
    have hb : s.phase ≠ .idle := by simp [hp]
    ⟨fun _ => h.flags.busy_not_done hb, fun _ => h.flags.busy_not_err hb, h.flags.done_not_err, h.flags.err_iff_cause⟩
  index := advance_indexWf (h.index.iter_index hp) _
  pipeline := fun _ => by
    obtain ⟨p, v0, f0, hs, hv, hf, hw⟩ := h.pipeline (.inl hp)
    refine ⟨p, v0, f0, hs, hv, hf, ?_⟩
    calc workVec (iterStep s)
        = iter (currentInstr s) s.ki.toNat (workVec s) s.v := rfl
      _ = iterate (currentInstr s) s.v (s.ki.toNat + 1) p := by rw [hw, iterate_succ]
      _ = iterate (currentInstr (iterStep s)) (iterStep s).v (iterStep s).ki.toNat p := by
        rw [← toNat_succ_of_lt_iterations (h.index.iter_index hp)]; rfl

/-! ### Every step keeps the invariant -/

theorem busWrite_inv {s : State} (h : s.Inv) (addr : BitVec 8) (w : Word) : (busWrite addr w s).Inv := by
  rcases busWrite_cases addr w s with he | ⟨hp, he⟩ | ⟨hp, he⟩ | ⟨-, -, i, -, he⟩ | ⟨-, -, f, -, he⟩ | ⟨-, he⟩ |
    ⟨-, -, he⟩ <;> rw [he]
  · exact h
  · exact .of_idle hp h.flags.done_not_err h.flags.err_iff_cause
  · exact .of_idle hp h.flags.done_not_err h.flags.err_iff_cause
  · exact accept_inv i s
  · exact rejectCommand_inv f s
  · exact h.withHostFields true s.free s.rdata s.events
  · exact h.withHostFields false s.free s.rdata s.events

/-- A read of any address writes nothing of the engine (20 R58). -/
theorem busRead_shape (addr : BitVec 8) (s : State) : ∃ w n, busRead addr s = { s with rdata := w, free := n } :=
  answerRead_shape (readRegister addr s) s

theorem busRead_inv {s : State} (h : s.Inv) (addr : BitVec 8) : (busRead addr s).Inv := by
  obtain ⟨w, n, he⟩ := busRead_shape addr s
  rw [he]
  exact h.withHostFields s.ovr n w s.events

theorem transact_inv {s : State} (h : s.Inv) (tr : Transaction) : (transact tr s).Inv := by
  unfold transact
  split
  · exact busWrite_inv h tr.addr tr.wdata
  · exact busRead_inv h tr.addr

theorem poll_inv {s : State} (h : s.Inv) : (poll s).Inv := by
  obtain ⟨w, n, es, he⟩ := poll_shape s
  rw [he]
  exact h.withHostFields s.ovr n w es

theorem micro_inv {s t : State} (h : s.Inv) (hm : micro s = .next t) : t.Inv := by
  rcases micro_cases hm with ⟨-, rfl⟩ | ⟨hp, rfl⟩ | ⟨hp, -, rfl⟩ | ⟨-, rfl⟩
  · exact h
  · exact setupStep_inv h.flags (by simp [hp])
  · exact iterStep_inv h hp
  · exact complete_inv _ s

/-- A whole command ends in a fault or in FINAL (41 R138). -/
theorem finish_inv (i : Instr) (s : State) : (finish i s).Inv := by
  cases hs : setup i s.a s.b with
  | fault c => rw [finish_fault hs]; exact raise_inv (setup_fault_ne_none hs) s
  | start p v0 f0 => rw [finish_start hs]; exact complete_inv _ _

theorem runCommand_inv {i : Instr} {s t : State} (h : s.Inv) (hr : runCommand i s = .next t) : t.Inv := by
  by_cases hp : s.phase = .idle
  · cases (runCommand_idle hp).symm.trans hr
    exact finish_inv i _
  · cases (runCommand_busy hp).symm.trans hr
    exact h.withHostFields true s.free s.rdata s.events

/-- Settles O52: taking the event from the schedule enters no clause, and each event has its own lemma. -/
theorem invariantKeptByEveryStep : Obligations.InvariantKeptByEveryStep := by
  intro s t h ht
  rcases step_cases ht with ⟨-, hm⟩ | ⟨e, rest, -, he⟩
  · exact micro_inv h hm
  have h' : State.Inv { s with events := rest } := h.withHostFields s.ovr s.free s.rdata rest
  rcases he with ⟨tr, -, rfl⟩ | ⟨-, hm⟩ | ⟨w, i, -, -, hr⟩ | ⟨w, f, -, -, rfl⟩ | ⟨-, rfl⟩ | ⟨dst, -, rfl⟩ | ⟨-, rfl⟩
  · exact transact_inv h' tr
  · exact micro_inv h' hm
  · exact runCommand_inv h' hr
  · exact busWrite_inv h' Addr.CMD w
  · exact poll_inv h'
  · exact busWrite_inv h' dst s.rdata
  · exact hardReset_inv _

/-! ### Along a run -/

/-- What every step of a machine keeps, every run of it keeps. -/
theorem run_preserves {M : Host.Core} {P : M.State → Prop} (hP : ∀ s t, P s → M.step s = .next t → P t) (n : Nat)
    {s t : M.State} (hs : P s) (hr : M.run n s = .next t) : P t := by
  induction n generalizing s with
  | zero => cases hr; exact hs
  | succ n ih =>
    cases hstep : M.step s with
    | next u => exact ih (hP s u hs hstep) ((run_succ M hstep).symm.trans hr)
    | fault r => simp [Host.Core.run, hstep] at hr
    | refused r => simp [Host.Core.run, hstep] at hr

/-- Every state that a schedule reaches from reset meets the invariant. -/
theorem inv_of_run_reset {n : Nat} {schedule : List Event} {t : State}
    (h : Sys2Proof.core.run n { State.reset with events := schedule } = .next t) : t.Inv :=
  run_preserves (M := Sys2Proof.core) invariantKeptByEveryStep n
    (invariantHoldsAtReset.withHostFields false 0 0#64 schedule) h

/-- Settles O54: the flag clauses of the invariant, in every state a run reaches. -/
theorem atMostOneOfBusyDoneErr : Obligations.AtMostOneOfBusyDoneErr := by
  intro n schedule t ht
  obtain ⟨hbd, hbe, hde, hec⟩ := (inv_of_run_reset ht).flags
  refine ⟨fun ⟨hb, hd⟩ => ?_, fun ⟨hb, he⟩ => ?_, fun ⟨hd, he⟩ => ?_, ?_⟩
  · simp [hbd (of_decide_eq_true hb)] at hd
  · simp [hbe (of_decide_eq_true hb)] at he
  · simp [hde hd] at he
  · rw [← Bool.not_eq_true, hec, not_not]

/-! ### STATUS -/

/-- In a state that meets the invariant CAUSE is 0 while ERR is 0 (10 R28). -/
theorem State.Inv.cause_eq_none {s : State} (h : s.Inv) (he : s.err = false) : s.cause = .none := by
  by_contra hc
  exact Bool.false_ne_true (he.symm.trans (h.flags.err_iff_cause.mpr hc))

theorem flagWord_getLsbD (b : Bool) (k : Nat) : (flagWord b).getLsbD k = (decide (k = 0) && b) := by
  cases b <;> simp [flagWord]

/-- The bits of STATUS, one term for each field (10 R28). -/
theorem statusWord_getLsbD (s : State) {k : Nat} (hk : k < 64) :
    (statusWord s).getLsbD k =
      (decide (k = 0) && busy s || decide (k = 1) && s.done || decide (k = 2) && s.err || decide (k = 3) && s.ovr ||
        decide (4 ≤ k) && s.cause.code.getLsbD (k - 4) || decide (8 ≤ k) && s.func.getLsbD (k - 8)) := by
  simp only [statusWord, BitVec.getLsbD_or, BitVec.getLsbD_shiftLeft, BitVec.getLsbD_setWidth, flagWord_getLsbD, hk]
  grind

theorem statusWord_flagBits (s : State) :
    (statusWord s).getLsbD 0 = busy s ∧ (statusWord s).getLsbD 1 = s.done ∧ (statusWord s).getLsbD 2 = s.err ∧
    (statusWord s).getLsbD 3 = s.ovr := by
  refine ⟨?_, ?_, ?_, ?_⟩ <;> rw [statusWord_getLsbD s (by decide)] <;> simp

/-- Above the four flags stand CAUSE and FUNC alone. -/
theorem statusWord_getLsbD_of_four_le (s : State) {k : Nat} (h4 : 4 ≤ k) (hk : k < 64) :
    (statusWord s).getLsbD k = (s.cause.code.getLsbD (k - 4) || decide (8 ≤ k) && s.func.getLsbD (k - 8)) := by
  obtain ⟨h0, h1, h2, h3⟩ : k ≠ 0 ∧ k ≠ 1 ∧ k ≠ 2 ∧ k ≠ 3 := by omega
  simp [statusWord_getLsbD s hk, h0, h1, h2, h3, h4]

/-- CAUSE stands in bits 7:4, below the first bit of FUNC. -/
theorem statusWord_causeField (s : State) : (statusWord s).extractLsb' 4 4 = s.cause.code := by
  refine BitVec.eq_of_getLsbD_eq fun k hk => ?_
  have hfunc : ¬ 8 ≤ 4 + k := by omega
  rw [BitVec.getLsbD_extractLsb', statusWord_getLsbD_of_four_le s (by omega) (by omega)]
  simp [hk, hfunc]

/-- FUNC stands in bits 10:8, above the last bit of CAUSE. -/
theorem statusWord_funcField (s : State) : (statusWord s).extractLsb' 8 3 = s.func := by
  refine BitVec.eq_of_getLsbD_eq fun k hk => ?_
  have hcause : s.cause.code.getLsbD (8 + k - 4) = false := BitVec.getLsbD_of_ge _ _ (by omega)
  rw [BitVec.getLsbD_extractLsb', statusWord_getLsbD_of_four_le s (by omega) (by omega)]
  simp [hk, hcause]

/-- The reserved bits 63:11 are above the last bit of every field. -/
theorem statusWord_reserved (s : State) : (statusWord s).extractLsb' 11 53 = 0#53 := by
  refine BitVec.eq_of_getLsbD_eq fun k hk => ?_
  have hcause : s.cause.code.getLsbD (11 + k - 4) = false := BitVec.getLsbD_of_ge _ _ (by omega)
  have hfunc : s.func.getLsbD (11 + k - 8) = false := BitVec.getLsbD_of_ge _ _ (by omega)
  rw [BitVec.getLsbD_extractLsb', statusWord_getLsbD_of_four_le s (by omega) (by omega)]
  simp [hcause, hfunc]

theorem statusWord_reset : statusWord State.reset = 0#64 := by decide

/-- Settles O39: each field is read off the bits of STATUS, and CAUSE is 0 with ERR by the invariant. -/
theorem statusWordFields : Obligations.StatusWordFields := by
  intro s
  obtain ⟨hbusy, hdone, herr, hovr⟩ := statusWord_flagBits s
  refine ⟨hbusy, hdone, herr, hovr, statusWord_causeField s, statusWord_funcField s, statusWord_reserved s,
    hbusy.symm, hdone.symm, herr.symm, fun w => rfl, fun addr => busRead_shape addr s, fun h he => ?_, statusWord_reset⟩
  rw [statusWord_causeField, h.cause_eq_none he, Cause.code]

/-! ### The state after reset, and the free values -/

/-- Settles O48: the stated fields by the definition of the reset state; R0 and R1 are not readable because DONE is 0. -/
theorem resetStateValues : Obligations.ResetStateValues :=
  ⟨rfl, rfl, statusWord_reset, rfl, rfl, readRegister_R0 State.reset, readRegister_R1 State.reset⟩

theorem micro_final {s : State} (h : s.phase = .final) : micro s = .next (finalStep s) := by
  simp only [micro, h]

theorem step_reset {s : State} {rest : List Event} (h : s.events = .reset :: rest) :
    step s = .next (hardReset { s with events := rest }) := by
  simp only [step, h]

/-- FINAL of a command without a second result draws R1 from the free values (41 R137; log 2). -/
theorem finalStep_r1_of_not_hasPair {s : State} (h : (currentInstr s).hasPair = false) :
    (finalStep s).r1 = Config.freeWord s.free ∧ (finalStep s).free = s.free + 1 := by
  have hnone : (final (currentInstr s) (workVec s) s.f (operandA s)).r1 = none :=
    Option.isNone_iff_eq_none.mp (Option.isSome_eq_false_iff.mp ((final_r1_isSome ..).trans h))
  simp [finalStep, hnone]

/-- Settles O50: a read that has no word to answer, FINAL without a second result, and the reset event. -/
theorem unspecifiedWordsAreFreeValues : Obligations.UnspecifiedWordsAreFreeValues := by
  refine ⟨fun s addr h => ?_, fun s t hp hpair hm => ?_, fun s t rest he ht => ?_⟩
  · rw [busRead, h, answerRead]
  · cases (micro_final hp).symm.trans hm
    exact finalStep_r1_of_not_hasPair hpair
  · cases (step_reset he).symm.trans ht
    exact ⟨rfl, rfl, rfl, rfl, rfl, rfl, rfl, rfl, rfl⟩

end Sys2Proof.Machine
end

section
/-! PROOFS. The family of spec/20_memory.md: the properties of the narrowed table (O35), and the host address map (O36). -/

namespace Sys2Proof

/-! ### The narrowed table (20 R55) -/

namespace Rom

/-- The angles still to come after step `k`, added up (20 R55). -/
def laterAngles (k : Nat) : Int := (((List.range 32).drop (k + 1)).map fun j => S (angle j)).sum

theorem angle_succ_lt : ∀ k < 31, S (angle (k + 1)) < S (angle k) := by decide

theorem angle_pos : ∀ k < 32, 0 < S (angle k) := by decide

theorem angle_sum : ((List.range 32).map fun j => S (angle j)).sum = 7487359006 := by decide

/-- An early angle can be taken back by the later ones. -/
theorem angle_lt_laterAngles : ∀ k ≤ 8, S (angle k) < laterAngles k := by decide

/-- From step 9 on the floor in `narrow` leaves the later angles a few raw units short. -/
theorem angle_sub_laterAngles : ∀ k < 31, 9 ≤ k → 1 ≤ S (angle k) - laterAngles k ∧ S (angle k) - laterAngles k ≤ 9 := by
  decide

theorem angle_le_laterAngles_add_nine {k : Nat} (hk : k < 31) : S (angle k) ≤ laterAngles k + 9 := by
  rcases Nat.lt_or_ge 8 k with h | h
  · have := angle_sub_laterAngles k hk h
    omega
  · have := angle_lt_laterAngles k h
    omega

theorem cos_pos_and_le_one : ∀ k < 32, 0 < S (cos k) ∧ S (cos k) ≤ 4294967296 := by decide

theorem cos_eq_one_sub_one : ∀ k < 30, 16 ≤ k → S (cos k) = 4294967295 := by decide

end Rom

/-- Settles O35: the values of the table, and the bound with slack 9 from its two ranges. -/
theorem narrowedTableProperties : Obligations.NarrowedTableProperties :=
  ⟨fun k hk => ⟨Rom.angle_succ_lt k hk, Rom.angle_pos (k + 1) (by omega)⟩, Rom.angle_sum, by decide,
    fun _ hk => Rom.angle_le_laterAngles_add_nine hk, fun k _ h => Rom.angle_lt_laterAngles k h, Rom.angle_sub_laterAngles,
    Rom.cos_pos_and_le_one, Rom.cos_eq_one_sub_one, by decide, by decide⟩

/-- The commands with a second result, by function code (10 R22). -/
theorem Instr.hasPair_ofCode_iff (c : BitVec 3) :
    (Instr.ofCode c).hasPair = true ↔ c = 0#3 ∨ c = 4#3 ∨ c = 5#3 ∨ c = 6#3 := by
  revert c
  decide

/-- The commands without one. -/
theorem Instr.hasPair_ofCode_eq_false_iff (c : BitVec 3) :
    (Instr.ofCode c).hasPair = false ↔ c = 1#3 ∨ c = 2#3 ∨ c = 3#3 ∨ c = 7#3 := by
  revert c
  decide

namespace Machine

/-! ### What a read returns (20 R57, R58) -/

/-- R1 can be read exactly when it is valid (10 R22). -/
theorem readRegister_R1_valid {s : State} (hd : s.done = true)
    (hf : s.func = 0#3 ∨ s.func = 4#3 ∨ s.func = 5#3 ∨ s.func = 6#3) : readRegister Addr.R1 s = some s.r1 := by
  have hp : (currentInstr s).hasPair = true := (Instr.hasPair_ofCode_iff s.func).mpr hf
  simp [readRegister_R1, hd, hp]

theorem readRegister_R1_invalid {s : State}
    (h : s.done = false ∨ s.func = 1#3 ∨ s.func = 2#3 ∨ s.func = 3#3 ∨ s.func = 7#3) : readRegister Addr.R1 s = none := by
  rcases h with hd | hf
  · simp [readRegister_R1, hd]
  · have hp : (currentInstr s).hasPair = false := (Instr.hasPair_ofCode_eq_false_iff s.func).mpr hf
    simp [readRegister_R1, hp]

/-- Two word addresses are told apart by their numbers. -/
theorem address_ne {m n : Nat} (h : m < n) (hn : n ≤ 0xFF) : BitVec.ofNat 8 n ≠ BitVec.ofNat 8 m := by
  bv_omega

/-- Above R1 a read does not depend on the state: the ROM window, and 0 outside it. -/
theorem readRegister_of_five_lt {n : Nat} (h : 0x05 < n) (hn : n ≤ 0xFF) (s : State) :
    readRegister (BitVec.ofNat 8 n) s = some (if 0x40 ≤ n ∧ n ≤ 0x80 then romWindow n else 0#64) := by
  have htoNat : (BitVec.ofNat 8 n).toNat = n := by rw [BitVec.toNat_ofNat]; omega
  have hne : ∀ m ≤ 0x05, BitVec.ofNat 8 n ≠ BitVec.ofNat 8 m := fun m hm => address_ne (by omega) hn
  rw [readRegister, if_neg (hne 0 (by decide)), if_neg (hne 1 (by decide)), if_neg (hne 2 (by decide)),
    if_neg (hne 3 (by decide)), if_neg (hne 4 (by decide)), if_neg (hne 5 (by decide)), htoNat, ← apply_ite some]

/-- The even words of the window are the angles. -/
theorem readRegister_ANGLE60 {k : Nat} (hk : k < 32) (s : State) :
    readRegister (Addr.ANGLE60 k) s = some (Rom.angle60 k) := by
  have hne : 0x40 + 2 * k ≠ 0x80 := by omega
  rw [Addr.ANGLE60, readRegister_of_five_lt (by omega) (by omega), if_pos (by omega), romWindow, if_neg hne,
    if_pos (by omega), Nat.add_sub_cancel_left, Nat.mul_div_cancel_left k (by decide)]

/-- The odd words of the window are the cosines. -/
theorem readRegister_COS60 {k : Nat} (hk : k < 32) (s : State) :
    readRegister (Addr.COS60 k) s = some (Rom.cos60 k) := by
  have hne : 0x41 + 2 * k ≠ 0x80 := by omega
  have hidx : (0x41 + 2 * k - 0x40) / 2 = k := by omega
  rw [Addr.COS60, readRegister_of_five_lt (by omega) (by omega), if_pos (by omega), romWindow, if_neg hne,
    if_neg (by omega), hidx]

theorem readRegister_reserved {n : Nat} (h : (0x06 ≤ n ∧ n ≤ 0x3F) ∨ (0x81 ≤ n ∧ n ≤ 0xFF)) (s : State) :
    readRegister (BitVec.ofNat 8 n) s = some 0#64 := by
  rw [readRegister_of_five_lt (by omega) (by omega), if_neg (by omega)]

/-- A word of the ROM tables is the entry of the list (20 R51). -/
theorem angle60Table_getElem? {k : Nat} (hk : k < 32) : Rom.angle60Table[k]? = some (Rom.angle60 k) := by
  have hlen : k < Rom.angle60Table.length := hk
  rw [Rom.angle60, List.getD_eq_getElem _ _ hlen, List.getElem?_eq_getElem hlen]

theorem cos60Table_getElem? {k : Nat} (hk : k < 32) : Rom.cos60Table[k]? = some (Rom.cos60 k) := by
  have hlen : k < Rom.cos60Table.length := hk
  rw [Rom.cos60, List.getD_eq_getElem _ _ hlen, List.getElem?_eq_getElem hlen]

/-- A read that has a word to answer delivers it and changes nothing else. -/
theorem busRead_of_some {addr : BitVec 8} {s : State} {w : Word} (h : readRegister addr s = some w) :
    busRead addr s = { s with rdata := w } := by
  rw [busRead, h, answerRead]

/-! ### What a write does (20 R58) -/

/-- The writes of A, B and CMD while idle. -/
theorem busWrite_idle {s : State} (h : s.phase = .idle) (w : Word) :
    busWrite Addr.A w s = { s with a := w } ∧ busWrite Addr.B w s = { s with b := w } ∧
    busWrite Addr.CMD w s = match decode w with | .legal i => accept i s | .illegalCommand func => rejectCommand func s :=
  ⟨if_pos h, if_pos h, if_pos h⟩

/-- The writes of A, B and CMD while busy are dropped (41 R141). -/
theorem busWrite_dropped {s : State} (h : s.phase ≠ .idle) (w : Word) :
    busWrite Addr.A w s = { s with ovr := true } ∧ busWrite Addr.B w s = { s with ovr := true } ∧
    busWrite Addr.CMD w s = { s with ovr := true } :=
  ⟨busWrite_busy h Addr.A w, busWrite_busy h Addr.B w, busWrite_busy h Addr.CMD w⟩

/-- The STATUS write, busy or not (10 R28). -/
theorem busWrite_STATUS (w : Word) (s : State) :
    busWrite Addr.STATUS w s = if w.getLsbD 3 then { s with ovr := false } else s := rfl

/-- Every address above STATUS ignores a write. -/
theorem busWrite_ignored {n : Nat} (h : 0x04 ≤ n) (hn : n ≤ 0xFF) (w : Word) (s : State) :
    busWrite (BitVec.ofNat 8 n) w s = s := by
  have hne : ∀ m < 0x04, BitVec.ofNat 8 n ≠ BitVec.ofNat 8 m := fun m hm => address_ne (by omega) hn
  rw [busWrite, if_neg (hne 0 (by decide)), if_neg (hne 1 (by decide)), if_neg (hne 2 (by decide)),
    if_neg (hne 3 (by decide))]

/-- Settles O36: one rule for each row of the map. -/
theorem hostAddressMap : Obligations.HostAddressMap := by
  intro s
  refine ⟨rfl, rfl, rfl, rfl, fun hd => ?_, fun hd => ?_, readRegister_R1_valid, readRegister_R1_invalid,
    fun n hn => readRegister_reserved hn s, fun k hk => ⟨?_, ?_⟩, rfl, fun _ _ => busRead_of_some,
    fun w => ⟨fun h => busWrite_idle h w, fun h => busWrite_dropped h w, fun h => ?_, fun h => ?_,
      fun n h hn => busWrite_ignored h hn w s⟩⟩
  · exact (readRegister_R0 s).trans (if_pos hd)
  · exact (readRegister_R0 s).trans (if_neg (Bool.eq_false_iff.mp hd))
  · exact (readRegister_ANGLE60 hk s).trans (angle60Table_getElem? hk).symm
  · exact (readRegister_COS60 hk s).trans (cos60Table_getElem? hk).symm
  · exact (busWrite_STATUS w s).trans (if_pos h)
  · exact (busWrite_STATUS w s).trans (if_neg (Bool.eq_false_iff.mp h))

end Machine
end Sys2Proof
end

section
/-! PROOFS. The family of spec/30_encoding.md: the decoder and the encoder (O1, O2, O3), the step of a command word (O4), and
the end of a WAIT (O60). -/

namespace Sys2Proof

/-! ### Function codes (30 R84) -/

/-- All eight function codes are used. -/
@[simp] theorem Instr.code_ofCode (c : BitVec 3) : (Instr.ofCode c).code = c := by
  revert c
  decide

/-- The family FunctionCode, for every command. -/
theorem functionCode_statement (i : Instr) : Laws.FunctionCode.Statement i := by
  cases i with
  | sincos => exact Laws.FunctionCode.sincos
  | sin => exact Laws.FunctionCode.sin
  | cos => exact Laws.FunctionCode.cos
  | tan => exact Laws.FunctionCode.tan
  | asin => exact Laws.FunctionCode.asin
  | acos => exact Laws.FunctionCode.acos
  | atan => exact Laws.FunctionCode.atan
  | atan2 => exact Laws.FunctionCode.atan2

@[simp] theorem funcField_encode (i : Instr) : funcField (encode i) = i.code := by
  obtain ⟨-, -, hfunc, -⟩ := functionCode_statement i
  exact hfunc

@[simp] theorem encode_highBits (i : Instr) : (encode i).extractLsb' 3 61 = 0#61 := by
  obtain ⟨-, -, -, hhigh⟩ := functionCode_statement i
  exact hhigh

/-! ### Decoding (30 R86) -/

theorem decode_of_legal {w : Word} (h : w.extractLsb' 3 61 = 0#61) : decode w = .legal (Instr.ofCode (funcField w)) :=
  if_pos (beq_iff_eq.mpr h)

theorem decode_of_illegal {w : Word} (h : w.extractLsb' 3 61 ≠ 0#61) : decode w = .illegalCommand (funcField w) :=
  if_neg fun hw => h (beq_iff_eq.mp hw)

@[simp] theorem decode_encode (i : Instr) : decode (encode i) = .legal i := by
  rw [decode_of_legal (encode_highBits i), funcField_encode, Instr.ofCode_code]

/-- A word with bits 63:3 zero is its low three bits, zero-extended. -/
theorem setWidth_funcField {w : Word} (h : w.extractLsb' 3 61 = 0#61) : (funcField w).setWidth 64 = w := by
  refine BitVec.eq_of_getLsbD_eq fun k hk => ?_
  rw [BitVec.getLsbD_setWidth, funcField, BitVec.getLsbD_extractLsb', Nat.zero_add]
  by_cases h3 : k < 3
  · simp [h3, hk]
  · have hbit : w.getLsbD k = false := by
      have := congrArg (·.getLsbD (k - 3)) h
      simpa [BitVec.getLsbD_extractLsb', show 3 + (k - 3) = k by omega, show k - 3 < 61 by omega] using this
    simp [h3, hbit]

theorem encode_ofCode_funcField {w : Word} (h : w.extractLsb' 3 61 = 0#61) :
    encode (Instr.ofCode (funcField w)) = w := by
  rw [encode, Instr.code_ofCode, setWidth_funcField h]

theorem ne_encode_of_illegal {w : Word} (h : w.extractLsb' 3 61 ≠ 0#61) (i : Instr) : w ≠ encode i := by
  rintro rfl
  exact h (encode_highBits i)

/-- Settles O2: the function code stands alone in the command word and names the command again. -/
theorem encodeThenDecode : Obligations.EncodeThenDecode := fun i _ => decode_encode i

/-- Settles O1: the eight table words are the encodings, and each of the four others has a bit above bit 2 set. -/
theorem tableWordsDecode : Obligations.TableWordsDecode :=
  ⟨decode_encode .sincos, decode_encode .sin, decode_encode .cos, decode_encode .tan, decode_encode .asin,
    decode_encode .acos, decode_encode .atan, decode_encode .atan2, decode_of_illegal (by decide),
    decode_of_illegal (by decide), decode_of_illegal (by decide), decode_of_illegal (by decide)⟩

namespace Machine

/-! ### The CMD write while idle (41 R131) -/

/-- A refused command leaves an idle engine idle. -/
theorem rejectCommand_idle {s : State} (h : s.phase = .idle) (func : BitVec 3) :
    rejectCommand func s = { s with func := func, done := false, err := true, cause := .illegalCmd } := by
  rw [rejectCommand, raise, ← h]

/-- An illegal word starts nothing. -/
theorem busWrite_CMD_illegal {s : State} (hs : s.phase = .idle) {w : Word} (hw : w.extractLsb' 3 61 ≠ 0#61) :
    busWrite Addr.CMD w s = { s with func := funcField w, done := false, err := true, cause := .illegalCmd } := by
  obtain ⟨-, -, hcmd⟩ := busWrite_idle hs w
  rw [hcmd, decode_of_illegal hw, ← rejectCommand_idle hs]

/-- The CMD write of a command is taken. -/
theorem transact_commandTransaction {s : State} (hs : s.phase = .idle) (i : Instr) :
    transact (commandTransaction i) s = accept i s := by
  obtain ⟨-, -, hcmd⟩ := busWrite_idle hs (encode i)
  rw [decode_encode] at hcmd
  exact hcmd

/-- Settles O3: bits 63:3 decide between the two sides, on which decoder, encoder and CMD write each have their lemma. -/
theorem legalWordsAreTheEncodings : Obligations.LegalWordsAreTheEncodings := fun _ =>
  ⟨fun h => ⟨decode_of_legal h, encode_ofCode_funcField h⟩,
    fun h => ⟨decode_of_illegal h, ne_encode_of_illegal h, fun _ hs => busWrite_CMD_illegal hs h⟩⟩

/-! ### One step, by the oldest event (41 R130) -/

theorem step_command_legal {s : State} {w : Word} {rest : List Event} {i : Instr} (he : s.events = .command w :: rest)
    (hd : decode w = .legal i) : step s = exec i { s with events := rest } := by
  simp only [step, he, hd]

theorem step_bus {s : State} {tr : Transaction} {rest : List Event} (he : s.events = .bus tr :: rest) :
    step s = .next (transact tr { s with events := rest }) := by
  simp only [step, he]

theorem step_micro {s : State} {rest : List Event} (he : s.events = .micro :: rest) :
    step s = micro { s with events := rest } := by
  simp only [step, he]

theorem step_poll {s : State} {rest : List Event} (he : s.events = .poll :: rest) :
    step s = .next (poll { s with events := rest }) := by
  simp only [step, he]

/-- With nothing scheduled an idle machine stays as it is (70 R249). -/
theorem step_idle {s : State} (he : s.events = []) (hs : s.phase = .idle) : step s = .next s := by
  simp only [step, he, micro, hs]

/-- The command word fits in the 64 bits that `withFetchWord` takes (log 7). -/
theorem withFetchWord_encode (s : State) (i : Instr) :
    s.withFetchWord 64 (encode i).toNat = { s with events := .command (encode i) :: s.events, phase := .idle } := by
  rw [State.withFetchWord, Nat.mod_eq_of_lt (encode i).isLt, BitVec.ofNat_toNat, BitVec.setWidth_eq]

/-- Settles O4: the word that `withFetchWord` places is a legal command word by `decode_encode`. -/
theorem stepRunsTheDecodedCommand : Obligations.StepRunsTheDecodedCommand := by
  refine ⟨fun s w rest i he hd => step_command_legal he hd, fun s i => ?_⟩
  rw [withFetchWord_encode]
  exact step_command_legal rfl (decode_encode i)

/-! ### A command in flight, and a command answered -/

/-- How many micro-steps the engine has before it: SETUP, 32 times ITER, FINAL, fewer when SETUP faults (41 R139). -/
def microStepsLeft (s : State) : Nat :=
  match s.phase with
  | .idle => 0
  | .setup => 34
  | .iter => 33 - s.ki.toNat
  | .final => 1

/-- Command `i` is in flight on the operands `a` and `b`. -/
structure Running (i : Instr) (a b : Word) (s : State) : Prop where
  inv : s.Inv
  busy : s.phase ≠ .idle
  a_eq : s.a = a
  b_eq : s.b = b
  func_eq : s.func = i.code

/-- The engine is idle with the answer of command `i` on the operands `a` and `b` (41 R138). -/
structure Answered (i : Instr) (a b : Word) (t : State) : Prop where
  phase_eq : t.phase = .idle
  a_eq : t.a = a
  func_eq : t.func = i.code
  fault : ∀ c, answer i a b = .fault c → t.err = true ∧ t.cause = c ∧ t.done = false
  result : ∀ r, answer i a b = .result r →
    t.done = true ∧ t.err = false ∧ t.r0 = r.r0 ∧ ∀ w, r.r1 = some w → t.r1 = w

section
variable {i : Instr} {a b : Word} {s : State}

/-- The word last read and the schedule do not belong to the command. -/
theorem Running.withHostFields (h : Running i a b s) (w : Word) (es : List Event) :
    Running i a b { s with rdata := w, events := es } :=
  ⟨h.inv.withHostFields s.ovr s.free w es, h.busy, h.a_eq, h.b_eq, h.func_eq⟩

theorem Answered.withHostFields (h : Answered i a b s) (w : Word) (es : List Event) :
    Answered i a b { s with rdata := w, events := es } :=
  ⟨h.phase_eq, h.a_eq, h.func_eq, h.fault, h.result⟩

theorem Running.currentInstr_eq (h : Running i a b s) : currentInstr s = i := by
  rw [currentInstr, h.func_eq, Instr.ofCode_code]

theorem running_accept (hs : s.a = a) (hb : s.b = b) : Running i a b (accept i s) :=
  ⟨accept_inv i s, by simp, hs, hb, rfl⟩

/-- In FINAL the working registers hold what the answer is made of: by the invariant they are 32 steps past SETUP. -/
theorem Running.answer_eq_of_final (h : Running i a b s) (hp : s.phase = .final) :
    answer i a b = .result (final i (workVec s) s.f a) := by
  obtain ⟨p, v0, f0, hsetup, hv, hf, hwork⟩ := h.inv.pipeline (.inr hp)
  rw [h.currentInstr_eq, h.a_eq, h.b_eq] at hsetup
  have hv' : v0.getD s.v = s.v := by cases v0 <;> simp [hv]
  have hf' : f0.getD s.f = s.f := by cases f0 <;> simp [hf]
  rw [answer_of_start hsetup s.v s.f, hv', hf', hwork, h.currentInstr_eq, h.inv.index.final_index hp]

/-! ### Each micro-step brings a command nearer to its answer (41 R133 to R137) -/

theorem Answered.of_raise (h : Running i a b s) {c : Cause} (hsetup : setup i a b = .fault c) :
    Answered i a b (raise c s) where
  phase_eq := rfl
  a_eq := h.a_eq
  func_eq := h.func_eq
  fault c' hc := by
    cases (answer_of_fault hsetup).symm.trans hc
    exact ⟨rfl, rfl, rfl⟩
  result r hr := by cases (answer_of_fault hsetup).symm.trans hr

theorem Running.finalStep_answered (h : Running i a b s) (hp : s.phase = .final) : Answered i a b (finalStep s) where
  phase_eq := rfl
  a_eq := h.a_eq
  func_eq := h.func_eq
  fault c hc := by cases (h.answer_eq_of_final hp).symm.trans hc
  result r hr := by
    cases (h.answer_eq_of_final hp).symm.trans hr
    rw [finalStep, h.currentInstr_eq, operandA, h.a_eq]
    exact ⟨rfl, rfl, rfl, fun w hw => by simp [hw]⟩

theorem Running.setupStep_nearer (h : Running i a b s) (hp : s.phase = .setup) :
    microStepsLeft (setupStep s) < microStepsLeft s ∧
    (Running i a b (setupStep s) ∨ Answered i a b (setupStep s)) := by
  have hinv := setupStep_inv h.inv.flags h.busy
  rcases setupStep_cases s with ⟨c, hsetup, he⟩ | ⟨p, v0, f0, -, he⟩ <;> rw [he] at hinv ⊢
  · rw [h.currentInstr_eq, h.a_eq, h.b_eq] at hsetup
    exact ⟨by simp [microStepsLeft, hp], .inr (.of_raise h hsetup)⟩
  · exact ⟨by simp [microStepsLeft, hp], .inl ⟨hinv, by simp, h.a_eq, h.b_eq, h.func_eq⟩⟩

theorem Running.iterStep_nearer (h : Running i a b s) (hp : s.phase = .iter) :
    microStepsLeft (iterStep s) < microStepsLeft s ∧ Running i a b (iterStep s) := by
  have hk : s.ki.toNat < 32 := h.inv.index.iter_index hp
  by_cases h31 : s.ki = 31#6
  · have hnext : (iterStep s).phase = .final := by simp [iterStep, h31]
    exact ⟨by simp [microStepsLeft, hp, hnext, h31],
      iterStep_inv h.inv hp, by simp [hnext], h.a_eq, h.b_eq, h.func_eq⟩
  · have hnext : (iterStep s).phase = .iter := by simp [iterStep, h31]
    have hki : (iterStep s).ki.toNat = s.ki.toNat + 1 := toNat_succ_of_lt_iterations hk
    refine ⟨?_, iterStep_inv h.inv hp, by simp [hnext], h.a_eq, h.b_eq, h.func_eq⟩
    simp only [microStepsLeft, hp, hnext, hki]
    omega

theorem setupStep_events (s : State) : (setupStep s).events = s.events := by
  rcases setupStep_cases s with ⟨c, -, he⟩ | ⟨p, v0, f0, -, he⟩ <;> simp [he]

/-- A command in flight never stops: its next micro-step keeps it in flight with fewer left, or answers it. -/
theorem Running.micro_nearer (h : Running i a b s) :
    ∃ t, micro s = .next t ∧ t.events = s.events ∧ microStepsLeft t < microStepsLeft s ∧
      (Running i a b t ∨ Answered i a b t) := by
  obtain ⟨t, ht⟩ := micro_next h.inv.index.iter_index
  refine ⟨t, ht, ?_⟩
  rcases micro_cases ht with ⟨hp, -⟩ | ⟨hp, rfl⟩ | ⟨hp, -, rfl⟩ | ⟨hp, rfl⟩
  · exact absurd hp h.busy
  · exact ⟨setupStep_events s, h.setupStep_nearer hp⟩
  · obtain ⟨hleft, hrun⟩ := h.iterStep_nearer hp
    exact ⟨rfl, hleft, .inl hrun⟩
  · exact ⟨rfl, by simp [microStepsLeft, hp, finalStep], .inr (h.finalStep_answered hp)⟩

/-! ### WAIT (30 R88; log 16) -/

/-- A poll delivers STATUS; of a busy engine it also schedules a micro-step and another poll. -/
theorem poll_eq (s : State) :
    poll s = if busy s then { s with rdata := statusWord s, events := .micro :: .poll :: s.events }
      else { s with rdata := statusWord s } := by
  have hread : busRead 0x03#8 s = { s with rdata := statusWord s } := busRead_of_some rfl
  obtain ⟨hbit, -⟩ := statusWord_flagBits s
  simp only [poll, hread, hbit]

variable {rest : List Event}

theorem step_poll_busy (he : s.events = .poll :: rest) (hs : s.phase ≠ .idle) :
    step s = .next { s with rdata := statusWord s, events := .micro :: .poll :: rest } :=
  (step_poll he).trans (congrArg _ ((poll_eq _).trans (if_pos (decide_eq_true hs))))

theorem step_poll_idle (he : s.events = .poll :: rest) (hs : s.phase = .idle) :
    step s = .next { s with rdata := statusWord s, events := rest } :=
  (step_poll he).trans (congrArg _ ((poll_eq _).trans (if_neg (by simp [busy, hs]))))

/-- One round of WAIT while a command is in flight: a poll and a micro-step, and WAIT is next again. -/
theorem Running.wait_round (h : Running i a b s) (he : s.events = .poll :: rest) :
    ∃ t, (∀ n, Sys2Proof.core.run (n + 2) s = Sys2Proof.core.run n t) ∧ t.events = .poll :: rest ∧
      microStepsLeft t < microStepsLeft s ∧ (Running i a b t ∨ Answered i a b t) := by
  obtain ⟨t, hmicro, ht⟩ := (h.withHostFields (statusWord s) (.poll :: rest)).micro_nearer
  exact ⟨t, fun n => (run_succ _ (step_poll_busy he h.busy)).trans (run_succ _ ((step_micro rfl).trans hmicro)), ht⟩

/-- The WAIT of a command in flight ends within two steps for each micro-step left, and one for the last poll. -/
theorem Running.wait_ends {s : State} (h : Running i a b s) (he : s.events = .poll :: rest) :
    ∃ m t, m ≤ 2 * microStepsLeft s + 1 ∧ Sys2Proof.core.run m s = .next t ∧ t.events = rest ∧ Answered i a b t := by
  obtain ⟨t, hround, het, hleft, ht | ht⟩ := h.wait_round he
  · obtain ⟨m, u, hm, hrun, hu⟩ := ht.wait_ends het
    exact ⟨m + 2, u, by omega, (hround m).trans hrun, hu⟩
  · exact ⟨3, _, by omega, (hround 1).trans (run_succ _ (step_poll_idle het ht.phase_eq)), rfl, ht.withHostFields _ _⟩
termination_by microStepsLeft s

end

/-! ### The host program of a command (30 R89) -/

/-- A run goes on from where its first part ended. -/
theorem run_add (M : Host.Core) {m : Nat} (n : Nat) {s t : M.State} (h : M.run m s = .next t) :
    M.run (m + n) s = M.run n t := by
  induction m generalizing s with
  | zero => cases h; rw [Nat.zero_add]
  | succ m ih =>
    rw [Nat.succ_add]
    cases hstep : M.step s with
    | next u => exact (run_succ M hstep).trans (ih ((run_succ M hstep).symm.trans h))
    | fault r => simp [Host.Core.run, hstep] at h
    | refused r => simp [Host.Core.run, hstep] at h

theorem run_idle (n : Nat) {s : State} (he : s.events = []) (hs : s.phase = .idle) :
    Sys2Proof.core.run n s = .next s := by
  induction n with
  | zero => rfl
  | succ n ih => exact (run_succ Sys2Proof.core (step_idle he hs)).trans ih

/-- Write A and issue the command: two steps, after which the command is in flight and WAIT is next. -/
theorem run_immediateForm {i : Instr} {s : State} {a : Word} (hs : s.phase = .idle) (he : s.events = immediateForm i a) :
    Sys2Proof.core.run 2 s = .next (accept i { s with a := a, events := [.poll] }) := by
  have hwrite : step s = .next { s with a := a, events := [.bus (commandTransaction i), .poll] } :=
    (step_bus he).trans
      (congrArg _ (busWrite_idle (s := { s with events := [.bus (commandTransaction i), .poll] }) hs a).1)
  have hissue : step { s with a := a, events := [.bus (commandTransaction i), .poll] } =
      .next (accept i { s with a := a, events := [.poll] }) :=
    (step_bus rfl).trans (congrArg _ (transact_commandTransaction (s := { s with a := a, events := [.poll] }) hs i))
  exact (run_succ Sys2Proof.core hwrite).trans (run_succ Sys2Proof.core hissue)

/-- Settles O60: two steps issue the command, at most 2 · 34 + 1 end its WAIT, and the idle machine stays as it is for the
rest of the 71. -/
theorem waitTerminates : Obligations.WaitTerminates := by
  intro i s a hs he
  have hissued := run_immediateForm hs he
  obtain ⟨m, t, hm, hwait, het, ht⟩ :=
    (running_accept (i := i) (s := { s with a := a, events := [.poll] }) rfl rfl).wait_ends rfl
  have hm : m ≤ 69 := hm
  refine ⟨t, ?_, het, ht.phase_eq, ht.a_eq, ht.func_eq, ht.fault, ht.result⟩
  calc Sys2Proof.core.run 71 s
      = Sys2Proof.core.run 69 (accept i { s with a := a, events := [.poll] }) := run_add _ 69 hissued
    _ = Sys2Proof.core.run (m + (69 - m)) (accept i { s with a := a, events := [.poll] }) := by
        rw [Nat.add_sub_cancel' hm]
    _ = Sys2Proof.core.run (69 - m) t := run_add _ _ hwait
    _ = .next t := run_idle _ het ht.phase_eq

end Machine
end Sys2Proof
end

section
/-! PROOFS. The family of spec/40_fixed_point_primitives.md: the rounding of the shifter and of `narrow` (O28), the adders as
word arithmetic (O29), the multiply and the divide in hardware terms (O30, O31), the saturating multiply (O32, O33) and the
remainder (O34). -/

namespace Sys2Proof

/-! ### Narrowing an integer to a word (00 R11) -/

theorem W_add (m n : Int) : W (m + n) = W m + W n := BitVec.ofInt_add m n

theorem W_neg (n : Int) : W (-n) = -W n := BitVec.ofInt_neg

/-! ### 128-bit intermediate values narrowed to a word -/

/-- Reducing an integer modulo 2^128 first does not change the word it narrows to. -/
theorem W_bmod_128 (n : Int) : W (n.bmod (2 ^ 128)) = W n :=
  BitVec.eq_of_toInt_eq (by simp only [BitVec.toInt_ofInt]; exact Int.bmod_bmod_of_dvd (by norm_num))

/-- Keeping the low 64 bits of a 128-bit vector is narrowing its signed value. -/
theorem setWidth_eq_W (x : BitVec 128) : x.setWidth 64 = W x.toInt := by
  rw [BitVec.toInt_eq_toNat_bmod, W_bmod_128]
  exact ((BitVec.ofInt_natCast 64 x.toNat).trans (BitVec.ofNat_toNat 64 x)).symm

theorem toInt_signExtend_128 (a : Word) : (a.signExtend 128).toInt = S a :=
  BitVec.toInt_signExtend_of_le (by decide)

/-! ### Truncating division of integers (40 R115) -/

theorem abs_tdiv (n d : Int) : |n.tdiv d| = |n| / |d| := by
  rw [Int.abs_eq_natAbs, Int.natAbs_tdiv, Int.abs_eq_natAbs, Int.abs_eq_natAbs]
  rfl

/-- A truncated quotient is negative exactly when the operands differ in sign and it is not 0. -/
theorem tdiv_neg_iff (n d : Int) : n.tdiv d < 0 ↔ (n < 0 ∧ 0 < d ∨ 0 < n ∧ d < 0) ∧ n.tdiv d ≠ 0 := by
  constructor
  · intro hq
    refine ⟨?_, hq.ne⟩
    by_contra hsigns
    have hsame : 0 ≤ n ∧ 0 ≤ d ∨ n ≤ 0 ∧ d ≤ 0 := by omega
    rcases hsame with ⟨hn, hd⟩ | ⟨hn, hd⟩
    · exact absurd (Int.tdiv_nonneg hn hd) (by omega)
    · exact absurd (Int.tdiv_nonneg_of_nonpos_of_nonpos hn hd) (by omega)
  · rintro ⟨⟨hn, hd⟩ | ⟨hn, hd⟩, hq⟩
    · have := Int.tdiv_nonneg (a := -n) (b := d) (by omega) hd.le
      rw [Int.neg_tdiv] at this
      omega
    · have := Int.tdiv_nonpos_of_nonneg_of_nonpos hn.le hd.le
      omega

theorem abs_tmod_lt (n : Int) {d : Int} (h : d ≠ 0) : |n.tmod d| < |d| := by
  rw [Int.abs_eq_natAbs, Int.abs_eq_natAbs, Int.natAbs_tmod]
  exact Int.ofNat_lt.2 (Nat.mod_lt _ (Int.natAbs_pos.2 h))

namespace Fixed

/-! ### The shifter and narrowing (40 R105, R113) -/

/-- Settles O28: both results are floored quotients as integers (`S_asr`, `S_narrow`). -/
theorem shiftAndNarrowRoundDown : Obligations.ShiftAndNarrowRoundDown := by
  refine ⟨fun a k _ => ?_, fun t => ?_⟩
  · rw [S_asr]
    exact ⟨Int.ediv_mul_le _ (by positivity), Int.lt_ediv_add_one_mul_self _ (by positivity)⟩
  · rw [S_narrow]
    omega

/-! ### The adders (40 R101 to R104) -/

theorem add_eq (a b : Word) : add a b = a + b := by
  rw [add, W_add, W_S, W_S]

theorem neg_eq (a : Word) : neg a = -a := by
  rw [neg, W_neg, W_S]

theorem sub_eq (a b : Word) : sub a b = a - b := by
  rw [sub, Int.sub_eq_add_neg, W_add, W_neg, W_S, W_S, BitVec.sub_eq_add_neg]

theorem abs_eq (a : Word) : abs a = if a.msb then -a else a := by
  by_cases h : S a < 0
  · rw [abs, if_neg (by omega), neg_eq, BitVec.msb_eq_toInt, if_pos (by simpa using h)]
  · rw [abs, if_pos (by omega), BitVec.msb_eq_toInt, if_neg (by simpa using h)]

/-- Settles O29: one equation for each adder. -/
theorem addersAreWordArithmetic : Obligations.AddersAreWordArithmetic := fun a b =>
  ⟨add_eq a b, sub_eq a b, neg_eq a, abs_eq a, neg_min, abs_min⟩

/-! ### The multiply (40 R106) -/

/-- The product of two words fits in 128 bits. -/
theorem toInt_product_128 (a b : Word) : (a.signExtend 128 * b.signExtend 128).toInt = S a * S b := by
  have ha := S_bounds a
  have hb := S_bounds b
  have habs : |S a * S b| ≤ 2 ^ 63 * 2 ^ 63 := by
    rw [abs_mul]
    exact mul_le_mul (abs_le.2 ⟨by omega, by omega⟩) (abs_le.2 ⟨by omega, by omega⟩) (abs_nonneg _) (by norm_num)
  rw [abs_le] at habs
  rw [BitVec.toInt_mul, toInt_signExtend_128, toInt_signExtend_128]
  apply Int.bmod_eq_of_le <;> norm_num <;> omega

theorem mul_eq_shifted_product (a b : Word) :
    mul a b = ((a.signExtend 128 * b.signExtend 128).sshiftRight 32).setWidth 64 := by
  rw [setWidth_eq_W, BitVec.toInt_sshiftRight, toInt_product_128, Int.shiftRight_eq_div_pow]
  rfl

theorem mul_ONE (a : Word) : mul a Const.ONE = a := by
  have hone : S Const.ONE = 2 ^ 32 := by decide
  rw [mul, flooredProduct, hone, Int.mul_ediv_cancel _ (by norm_num), W_S]

theorem mul_ZERO (a : Word) : mul a 0#64 = 0#64 := by
  simp [mul, flooredProduct]

/-- Settles O30: the exact product fits in 128 bits (`toInt_product_128`), so the hardware shift floors it. -/
theorem multiplierInHardwareTerms : Obligations.MultiplierInHardwareTerms := fun a b =>
  ⟨mul_eq_shifted_product a b, mul_comm a b, mul_ONE a, mul_ZERO a⟩

/-! ### The divide (40 R108) -/

/-- The shifted dividend fits in 96 bits, so in 128. -/
theorem toInt_dividend_128 (a : Word) : (a.signExtend 128 <<< 32).toInt = S a * 2 ^ 32 := by
  have ha := S_bounds a
  have hpow : (BitVec.twoPow 128 32).toInt = 2 ^ 32 := by decide
  rw [BitVec.shiftLeft_eq_mul_twoPow, BitVec.toInt_mul, toInt_signExtend_128, hpow]
  apply Int.bmod_eq_of_le <;> norm_num <;> omega

theorem div_eq_sdiv (a b : Word) (h : S b ≠ 0) :
    div a b h = ((a.signExtend 128 <<< 32).sdiv (b.signExtend 128)).setWidth 64 := by
  rw [setWidth_eq_W, BitVec.toInt_sdiv, W_bmod_128, toInt_dividend_128, toInt_signExtend_128, div]

/-- Settles O31: the 128-bit quotient (`div_eq_sdiv`), and the magnitude and sign of a truncated quotient. -/
theorem dividerInHardwareTerms : Obligations.DividerInHardwareTerms := by
  intro a b h
  refine ⟨div_eq_sdiv a b h, rfl, ?_, ?_⟩
  · rw [abs_tdiv, abs_mul]
    rfl
  · rw [tdiv_neg_iff]
    have hneg : S a * 2 ^ 32 < 0 ↔ S a < 0 := by omega
    have hpos : 0 < S a * 2 ^ 32 ↔ 0 < S a := by omega
    rw [hneg, hpos]

/-! ### The saturating multiply (40 R107, R115) -/

theorem smul_of_below {a b : Word} (h : S a * S b / 2 ^ 32 < -2 ^ 63) : smul a b = Const.MIN := by
  rw [smul, flooredProduct, clamp, if_pos h]
  decide

theorem smul_of_above {a b : Word} (h : 2 ^ 63 - 1 < S a * S b / 2 ^ 32) : smul a b = Const.MAX := by
  rw [smul, flooredProduct, clamp, if_neg (by omega), if_pos h]
  decide

theorem smul_of_inside {a b : Word} (h1 : -2 ^ 63 ≤ S a * S b / 2 ^ 32) (h2 : S a * S b / 2 ^ 32 ≤ 2 ^ 63 - 1) :
    smul a b = mul a b := by
  rw [smul, mul, flooredProduct, clamp, if_neg (not_lt.2 h1), if_neg (not_lt.2 h2)]

/-- Settles O32: one lemma for each range of the floored product. -/
theorem saturatingMultiplyClamps : Obligations.SaturatingMultiplyClamps := by
  intro a b
  refine ⟨smul_of_below, smul_of_above, fun h1 h2 => ⟨?_, smul_of_inside h1 h2⟩⟩
  rw [smul_of_inside h1 h2, S_mul h1 (by omega)]

/-- Refutes O33: 0x0000000300000004 times 0x7FFFFFFF55555556 has the floored product 3 · 2^63 - 1, out of range, which wraps
to MAX and saturates to MAX. -/
theorem not_multipliesAgreeOnlyInRange : ¬ Obligations.MultipliesAgreeOnlyInRange := by
  intro h
  have hagree : mul 0x0000000300000004#64 0x7FFFFFFF55555556#64 = smul 0x0000000300000004#64 0x7FFFFFFF55555556#64 := by
    decide
  have habove : 2 ^ 63 - 1 < S 0x0000000300000004#64 * S 0x7FFFFFFF55555556#64 / 2 ^ 32 := by decide
  exact absurd (h _ _ hagree).2 (not_le.2 habove)

/-! ### The remainder (40 R109) -/

/-- The remainder never overflows: it is the truncating remainder of the integers. -/
theorem S_rem {a b : Word} (h : S b ≠ 0) : S (rem a b h) = (S a).tmod (S b) := by
  have hb := S_bounds b
  have hlt := abs_tmod_lt (S a) h
  have habs : |S b| ≤ 2 ^ 63 := abs_le.2 ⟨by omega, by omega⟩
  obtain ⟨hlo, hhi⟩ := abs_lt.1 (hlt.trans_le habs)
  rw [rem, Int.mul_comm, ← Int.tmod_def]
  exact S_W hlo.le hhi

/-- Settles O34: the remainder is the integers' truncating one (`S_rem`). -/
theorem remainderHasTheSignOfTheDividend : Obligations.RemainderHasTheSignOfTheDividend := by
  intro a b h
  rw [S_rem h]
  refine ⟨?_, abs_tmod_lt _ h, Int.tmod_nonneg _, fun ha => ?_⟩
  · rw [Int.tmod_def, Int.mul_comm]
  · have := Int.tmod_nonneg (a := -S a) (S b) (by omega)
    rw [Int.neg_tmod] at this
    omega

end Fixed
end Sys2Proof
end

section
/-! PROOFS. The family of spec/41_command_lifecycle.md: the micro-steps (O42, O43, O44, O45), what a step does and that it never
stops (O5, O53), the host while busy (O15, O37, O38, O41, O46), the meaning of a command and its answer (O14, O58), and a command
in flight, micro-step by micro-step: after `n` of them the state is known exactly, whatever the host does in between, and the
last one leads to the meaning of the command (O55, O56, O57). -/

namespace Sys2Proof.Machine

/-! ### One micro-step, by PHASE (41 R132) -/

theorem micro_idle {s : State} (h : s.phase = .idle) : micro s = .next s := by
  simp only [micro, h]

theorem micro_setup {s : State} (h : s.phase = .setup) : micro s = .next (setupStep s) := by
  simp only [micro, h]

theorem micro_iter {s : State} (h : s.phase = .iter) (hk : s.ki.toNat < iterations) : micro s = .next (iterStep s) := by
  simp only [micro, h, if_pos hk]

theorem setupStep_of_start {s : State} {p : Vec} {v0 f0 : Option Word}
    (h : setup (currentInstr s) s.a s.b = .start p v0 f0) : setupStep s = start p v0 f0 s := by
  simp only [setupStep, operandA, operandB, h]

theorem setupStep_of_fault {s : State} {c : Cause} (h : setup (currentInstr s) s.a s.b = .fault c) :
    setupStep s = raise c s := by
  simp only [setupStep, operandA, operandB, h]

/-- A micro-step neither reads nor writes OVR. -/
theorem micro_withOvr {s t : State} (h : micro s = .next t) (o : Bool) :
    micro { s with ovr := o } = .next { t with ovr := o } := by
  rcases micro_cases h with ⟨hp, rfl⟩ | ⟨hp, rfl⟩ | ⟨hp, hk, rfl⟩ | ⟨hp, rfl⟩
  · simp only [micro, hp]
  · rcases setupStep_cases s with ⟨c, hs, he⟩ | ⟨p, v0, f0, hs, he⟩ <;> rw [he]
    · exact (micro_setup (s := { s with ovr := o }) hp).trans (congrArg _ (setupStep_of_fault hs))
    · exact (micro_setup (s := { s with ovr := o }) hp).trans (congrArg _ (setupStep_of_start hs))
  · exact micro_iter hp hk
  · exact micro_final hp

theorem micro_ovr {s t : State} (h : micro s = .next t) : t.ovr = s.ovr := by
  have heq : t = { t with ovr := s.ovr } := Host.Outcome.next.inj (h.symm.trans (micro_withOvr h s.ovr))
  rw [heq]

/-! ### SETUP (41 R133, R134) -/

/-- The faults of SETUP: DOMAIN for ASIN and ACOS, ZERO_VECTOR for ATAN2 (43 R182, R183, 44 R200). -/
theorem setup_fault_cases {i : Instr} {a b : Word} {c : Cause} (h : setup i a b = .fault c) :
    (c = .domain ∧ (i = .asin ∨ i = .acos)) ∨ (c = .zeroVector ∧ i = .atan2) := by
  cases i with
  | sincos | sin | cos | tan | atan => cases h
  | asin => simp only [setup, setupAsin] at h; split at h <;> cases h; exact .inl ⟨rfl, .inl rfl⟩
  | acos => simp only [setup, setupAcos] at h; split at h <;> cases h; exact .inl ⟨rfl, .inr rfl⟩
  | atan2 => simp only [setup, setupAtan2] at h; split at h <;> cases h; exact .inr ⟨rfl, rfl⟩

/-- FUNC is the code of the command it names. -/
theorem func_eq_code (s : State) : s.func = (currentInstr s).code := (Instr.code_ofCode s.func).symm

/-- SETUP that starts writes F in rotation mode and V in vectoring mode (41 R133). -/
theorem setup_start_writes {i : Instr} {a b : Word} {p : Vec} {v0 f0 : Option Word} (h : setup i a b = .start p v0 f0) :
    (i.isRotation = true ↔ f0.isSome = true) ∧ (i.isRotation = false ↔ v0.isSome = true) := by
  cases hi : i.isRotation with
  | true => obtain ⟨rfl, f, rfl⟩ := setup_start_of_rotation hi h; simp
  | false => obtain ⟨⟨v, rfl⟩, rfl⟩ := setup_start_of_vectoring hi h; simp

/-- Settles O42: one lemma for the writes of each end of SETUP, one for the registers it starts, one for its faults. -/
theorem setupMicroStep : Obligations.SetupMicroStep := by
  intro s hp
  refine ⟨fun p v0 f0 hs => ⟨?_, setup_start_writes hs⟩, fun c hs => ⟨raise c s, ?_, rfl, ?_, ?_, ?_⟩⟩
  · rw [micro_setup hp, setupStep_of_start hs, start]
  · rw [micro_setup hp, setupStep_of_fault hs]
  · exact readRegister_R0 (raise c s)
  · exact readRegister_R1_invalid (.inl rfl)
  · rw [func_eq_code]
    rcases setup_fault_cases hs with ⟨hc, hi | hi⟩ | ⟨hc, hi⟩ <;> simp [hc, hi, Instr.code]

/-! ### ITER (41 R135, R136) -/

/-- Settles O43: the two outcomes of the test of KI against 31. -/
theorem iterMicroStep : Obligations.IterMicroStep := by
  intro s hp hk
  refine ⟨fun h31 => ?_, fun h31 => ?_⟩
  · rw [micro_iter hp hk, iterStep, advance, if_pos h31, h31]
    rfl
  · rw [micro_iter hp hk, iterStep, advance, if_neg h31, ← hp]
    rfl

/-! ### FINAL (41 R137) -/

/-- The commands that leave R1 UNSPEC, by function code. -/
theorem final_r1_eq_none_iff (s : State) (p : Vec) (f a : Word) :
    (final (currentInstr s) p f a).r1 = none ↔ s.func = 1#3 ∨ s.func = 2#3 ∨ s.func = 3#3 ∨ s.func = 7#3 := by
  rw [← Instr.hasPair_ofCode_eq_false_iff, ← Option.isNone_iff_eq_none, ← Option.isSome_eq_false_iff,
    final_r1_isSome, currentInstr]

/-- Settles O44: the second result is the answer's or a free value, and R1 can be read only of a command that has one. -/
theorem finalMicroStep : Obligations.FinalMicroStep := by
  intro s hp
  refine ⟨_, _, micro_final hp, fun w' hw => ?_, final_r1_eq_none_iff .., fun t ht hr => ?_⟩
  · exact congrArg (Option.getD · _) hw
  · cases (micro_final hp).symm.trans ht
    exact readRegister_R1_invalid (.inr ((final_r1_eq_none_iff ..).mp hr))

/-! ### PHASE (41 R132) -/

theorem phase_setupStep (s : State) :
    (setupStep s).phase = match setup (currentInstr s) s.a s.b with | .fault _ => .idle | .start _ _ _ => .iter := by
  rcases setupStep_cases s with ⟨c, hs, he⟩ | ⟨p, v0, f0, hs, he⟩ <;> rw [hs, he] <;> rfl

theorem transact_read (addr : BitVec 8) (d : Word) (s : State) : transact ⟨false, addr, d⟩ s = busRead addr s := rfl

theorem transact_write (addr : BitVec 8) (w : Word) (s : State) : transact ⟨true, addr, w⟩ s = busWrite addr w s := rfl

/-- A CMD write of a legal word is taken while idle. -/
theorem busWrite_CMD_legal {s : State} (hs : s.phase = .idle) {w : Word} (hw : w.extractLsb' 3 61 = 0#61) :
    busWrite Addr.CMD w s = accept (Instr.ofCode (funcField w)) s := by
  obtain ⟨-, -, hcmd⟩ := busWrite_idle hs w
  rw [hcmd, decode_of_legal hw]

theorem legal_of_decode {w : Word} {i : Instr} (h : decode w = .legal i) : w.extractLsb' 3 61 = 0#61 := by
  by_contra hw
  cases (decode_of_illegal hw).symm.trans h

/-- A write changes PHASE only as a CMD write of a legal word while idle. -/
theorem busWrite_phase {s : State} {addr : BitVec 8} {w : Word}
    (h : ¬ (s.phase = .idle ∧ addr = Addr.CMD ∧ w.extractLsb' 3 61 = 0#61)) : (busWrite addr w s).phase = s.phase := by
  rcases busWrite_cases addr w s with he | ⟨-, he⟩ | ⟨-, he⟩ | ⟨hp, ha, i, hd, -⟩ | ⟨hp, -, f, -, he⟩ | ⟨-, he⟩ |
    ⟨-, -, he⟩
  · rw [he]
  · rw [he]
  · rw [he]
  · exact absurd ⟨hp, ha, legal_of_decode hd⟩ h
  · rw [he, hp]; rfl
  · rw [he]; rfl
  · rw [he]

/-- A read leaves PHASE, a write unless it is a CMD write that is taken (41 R132). -/
theorem transact_phase {s : State} {tr : Transaction}
    (h : ¬ (s.phase = .idle ∧ tr.we = true ∧ tr.addr = Addr.CMD ∧ tr.wdata.extractLsb' 3 61 = 0#61)) :
    (transact tr s).phase = s.phase := by
  obtain ⟨we, addr, w⟩ := tr
  cases we with
  | false =>
    obtain ⟨w', n, he⟩ := busRead_shape addr s
    rw [transact_read, he]
  | true => exact busWrite_phase fun ⟨hp, ha, hw⟩ => h ⟨hp, rfl, ha, hw⟩

/-- Settles O45: the micro-steps by PHASE, the CMD write that is taken, and all other transactions (`transact_phase`). -/
theorem phaseTransitions : Obligations.PhaseTransitions := by
  refine ⟨fun s t ht => ⟨fun hp => ?_, fun hp => ?_, fun hp => ?_, fun hp => ?_⟩,
    fun s ⟨we, addr, w⟩ => ⟨fun ⟨hp, hwe, haddr, hw⟩ => ?_, transact_phase⟩, fun s => rfl⟩
  · cases (micro_idle hp).symm.trans ht
    rfl
  · cases (micro_setup hp).symm.trans ht
    exact phase_setupStep s
  · rcases micro_cases ht with ⟨h, -⟩ | ⟨h, -⟩ | ⟨-, -, rfl⟩ | ⟨h, -⟩
    case inr.inr.inl => rfl
    all_goals simp [hp] at h
  · cases (micro_final hp).symm.trans ht
    rfl
  · obtain rfl : we = true := hwe
    obtain rfl : addr = Addr.CMD := haddr
    rw [transact_write, busWrite_CMD_legal hp hw, accept_phase]

/-! ### The host while busy (41 R131, R140, R141) -/

/-- Settles O41: the CMD write of a legal word, of an illegal word, and while busy. -/
theorem commandDecode : Obligations.CommandDecode := by
  intro s w
  refine ⟨fun hp hw => ?_, fun hp hw => ?_, fun hp => (busWrite_dropped hp w).2.2⟩
  · rw [transact_write]
    refine (busWrite_CMD_legal hp hw).trans ?_
    rw [accept, Instr.code_ofCode, funcField]
  · rw [transact_write]
    refine (busWrite_CMD_illegal hp hw).trans ?_
    rw [← hp, funcField]

/-- Settles O15: a busy engine drops the CMD write of every command. -/
theorem commandWhileBusyIsDropped : Obligations.CommandWhileBusyIsDropped := by
  intro i s hp
  rw [exec_eq_runCommand, runCommand_busy hp, dropWrite]

/-- A write that clears OVR is a STATUS write with bit 3 set (41 R141). -/
theorem busWrite_clears_ovr {s : State} {addr : BitVec 8} {w : Word} (h : s.ovr = true)
    (ht : (busWrite addr w s).ovr = false) : addr = 0x03#8 ∧ w.getLsbD 3 = true := by
  rcases busWrite_cases addr w s with he | ⟨-, he⟩ | ⟨-, he⟩ | ⟨-, -, i, -, he⟩ | ⟨-, -, f, -, he⟩ | ⟨-, he⟩ |
    ⟨ha, hw, -⟩
  case inr.inr.inr.inr.inr.inr => exact ⟨ha, hw⟩
  all_goals simp [he, h] at ht

theorem transact_clears_ovr {s : State} {tr : Transaction} (h : s.ovr = true) (ht : (transact tr s).ovr = false) :
    ∃ w, tr = ⟨true, 0x03#8, w⟩ ∧ w.getLsbD 3 = true := by
  obtain ⟨we, addr, w⟩ := tr
  cases we with
  | false =>
    obtain ⟨w', n, he⟩ := busRead_shape addr s
    simp [transact_read, he, h] at ht
  | true =>
    obtain ⟨rfl, hw⟩ := busWrite_clears_ovr h ht
    exact ⟨w, rfl, hw⟩

theorem poll_ovr (s : State) : (poll s).ovr = s.ovr := by
  obtain ⟨w, n, l, he⟩ := poll_shape s
  rw [he]

/-- However a whole command ends, the engine is idle, and OVR and the schedule are as they were (41 R134, R137). -/
theorem finish_phase_ovr_events (i : Instr) (s : State) :
    (finish i s).phase = .idle ∧ (finish i s).ovr = s.ovr ∧ (finish i s).events = s.events := by
  cases hs : setup i s.a s.b with
  | fault c => rw [finish_fault hs]; exact ⟨rfl, rfl, rfl⟩
  | start p v0 f0 => rw [finish_start hs]; exact ⟨rfl, rfl, rfl⟩

/-- A command taken keeps OVR and a dropped one sets it. -/
theorem runCommand_ovr {i : Instr} {s t : State} (h : s.ovr = true) (ht : runCommand i s = .next t) : t.ovr = true := by
  by_cases hp : s.phase = .idle
  · cases (runCommand_idle hp).symm.trans ht
    obtain ⟨-, hovr, -⟩ := finish_phase_ovr_events i (accept i s)
    rw [hovr, accept_ovr, h]
  · cases (runCommand_busy hp).symm.trans ht
    rfl

/-- OVR is sticky: only a STATUS write or reset clears it (41 R141). -/
theorem step_clears_ovr {s t : State} (h : s.ovr = true) (hstep : step s = .next t) (ht : t.ovr = false) :
    ∃ e rest, s.events = e :: rest ∧
      (e = .reset ∨ (∃ w, e = .bus ⟨true, 0x03#8, w⟩ ∧ w.getLsbD 3 = true) ∨
        (e = .copy 0x03#8 ∧ s.rdata.getLsbD 3 = true)) := by
  rcases step_cases hstep with ⟨-, hm⟩ | ⟨e, rest, he, hcase⟩
  · simp [micro_ovr hm, h] at ht
  refine ⟨e, rest, he, ?_⟩
  rcases hcase with ⟨tr, rfl, rfl⟩ | ⟨-, hm⟩ | ⟨w, i, -, -, hr⟩ | ⟨w, f, -, -, rfl⟩ | ⟨-, rfl⟩ |
    ⟨dst, rfl, rfl⟩ | ⟨hreset, -⟩
  · obtain ⟨w, rfl, hw⟩ := transact_clears_ovr (s := { s with events := rest }) h ht
    exact .inr (.inl ⟨w, rfl, hw⟩)
  · simp [micro_ovr hm, h] at ht
  · simp [runCommand_ovr (s := { s with events := rest }) h hr] at ht
  · obtain ⟨haddr, -⟩ := busWrite_clears_ovr (s := { s with events := rest }) (addr := Addr.CMD) h ht
    exact absurd haddr (by decide)
  · simp [poll_ovr, h] at ht
  · obtain ⟨rfl, hw⟩ := busWrite_clears_ovr (s := { s with events := rest }) h ht
    exact .inr (.inr ⟨rfl, hw⟩)
  · exact .inl hreset

/-- Settles O37: the rows of the address map for a busy engine, and `step_clears_ovr`. -/
theorem writesWhileBusy : Obligations.WritesWhileBusy := by
  refine ⟨fun s w hp => ?_, fun s t h => step_clears_ovr h⟩
  obtain ⟨hA, hB, hCMD⟩ := busWrite_dropped hp w
  refine ⟨hA, hB, hCMD, fun hw => ?_, fun hw => ?_, fun n h hn => busWrite_ignored h hn w s⟩
  · exact (busWrite_STATUS w s).trans (if_pos hw)
  · exact (busWrite_STATUS w s).trans (if_neg (Bool.eq_false_iff.mp hw))

/-- STATUS of a busy engine: DONE, ERR and CAUSE are 0 by the invariant (10 R29). -/
theorem statusWord_busy {s : State} (h : s.Inv) (hp : s.phase ≠ .idle) :
    statusWord s = 1#64 ||| (if s.ovr then 8#64 else 0#64) ||| s.func.setWidth 64 <<< 8 := by
  have herr := h.flags.busy_not_err hp
  rw [statusWord, busy, h.flags.busy_not_done hp, herr, h.cause_eq_none herr]
  cases s.ovr <;> simp [hp, flagWord, Cause.code]

theorem busRead_rdata {addr : BitVec 8} {s : State} {w : Word} (h : readRegister addr s = some w) :
    (busRead addr s).rdata = w := by
  rw [busRead_of_some h]

/-- Settles O38: STATUS by `statusWord_busy`, R0 and R1 by DONE, every other address by the address map. -/
theorem readsWhileBusy : Obligations.ReadsWhileBusy := by
  intro s h hp
  have hdone := h.flags.busy_not_done hp
  refine ⟨?_, rfl, rfl, rfl, ?_, readRegister_R1_invalid (.inl hdone), fun k hk => ⟨?_, ?_⟩, rfl⟩
  · exact (busRead_rdata rfl).trans (statusWord_busy h hp)
  · rw [readRegister_R0, hdone]; rfl
  · exact busRead_rdata (readRegister_ANGLE60 hk s)
  · exact busRead_rdata (readRegister_COS60 hk s)

/-- Settles O46: a dropped write changes OVR alone, which no micro-step reads (`micro_withOvr`). -/
theorem droppedWriteDisturbsNothing : Obligations.DroppedWriteDisturbsNothing := by
  intro s t addr w hp ht haddr
  have hdrop : busWrite addr w s = { s with ovr := true } := by
    obtain ⟨hA, hB, hCMD⟩ := busWrite_dropped hp w
    rcases haddr with rfl | rfl | rfl
    · exact hA
    · exact hB
    · exact hCMD
  refine ⟨by rw [hdrop]; exact micro_withOvr ht true, fun htp => ?_⟩
  obtain ⟨hA, hB, hCMD⟩ := busWrite_idle htp w
  refine ⟨?_, ?_, ?_⟩
  · rintro rfl; exact hA
  · rintro rfl; exact hB
  · rintro rfl i hd; rw [hCMD, hd]

/-! ### A step (41 R130) -/

/-- With nothing scheduled the engine runs alone. -/
theorem step_nil {s : State} (he : s.events = []) : step s = micro s := by
  simp only [step, he]

theorem step_command_illegal {s : State} {w : Word} {rest : List Event} {func : BitVec 3}
    (he : s.events = .command w :: rest) (hd : decode w = .illegalCommand func) :
    step s = .next (busWrite Addr.CMD w { s with events := rest }) := by
  simp only [step, he, hd]
  rfl

theorem step_copy {s : State} {dst : BitVec 8} {rest : List Event} (he : s.events = .copy dst :: rest) :
    step s = .next (busWrite dst s.rdata { s with events := rest }) := by
  simp only [step, he, copyLastRead]

/-- Settles O5: one equation of `step` for each event. -/
theorem stepTakesTheOldestEvent : Obligations.StepTakesTheOldestEvent := fun _ _ =>
  ⟨step_idle, step_nil, fun _ => step_bus, step_micro, fun _ _ => step_command_illegal, step_poll_idle, step_poll_busy,
    fun _ => step_copy, step_reset⟩

/-- The meaning of a command never stops: it is taken or dropped. -/
theorem exec_continues (i : Instr) (s : State) : Continues (exec i s) := by
  rw [exec_eq_runCommand]
  by_cases hp : s.phase = .idle
  · exact ⟨_, runCommand_idle hp⟩
  · exact ⟨_, runCommand_busy hp⟩

/-- Settles O53: only an ITER micro-step can stop, and by the invariant KI is in range there (10 R26). -/
theorem noStepStops : Obligations.NoStepStops := by
  intro s h
  cases he : s.events with
  | nil => rw [step_nil he]; exact micro_next h.index.iter_index
  | cons e rest =>
    cases e with
    | bus tr => exact ⟨_, step_bus he⟩
    | micro => rw [step_micro he]; exact micro_next h.index.iter_index
    | command w =>
      cases hd : decode w with
      | legal i => rw [step_command_legal he hd]; exact exec_continues i _
      | illegalCommand func => exact ⟨_, step_command_illegal he hd⟩
    | poll => exact ⟨_, step_poll he⟩
    | copy dst => exact ⟨_, step_copy he⟩
    | reset => exact ⟨_, step_reset he⟩

/-! ### The meaning of a command and its answer (41 R138) -/

/-- A command answers with a fault exactly when its SETUP faults. -/
theorem setup_of_answer_fault {i : Instr} {a b : Word} {c : Cause} (h : answer i a b = .fault c) :
    setup i a b = .fault c := by
  cases hs : setup i a b with
  | fault c' => cases (answer_of_fault hs).symm.trans h; rfl
  | start p v0 f0 => simp [answer, hs] at h

/-- A command answers with results exactly when its SETUP starts. -/
theorem setup_of_answer_result {i : Instr} {a b : Word} {r : Results} (h : answer i a b = .result r) :
    ∃ p v0 f0, setup i a b = .start p v0 f0 := by
  cases hs : setup i a b with
  | fault c => cases (answer_of_fault hs).symm.trans h
  | start p v0 f0 => exact ⟨p, v0, f0, rfl⟩

/-- A command taken while idle whose SETUP faults ends in that fault. -/
theorem exec_faultedWith {i : Instr} {s : State} {c : Cause} (hp : s.phase = .idle) (h : setup i s.a s.b = .fault c) :
    ∃ t, exec i s = .next t ∧ FaultedWith i c s t :=
  ⟨_, exec_idle hp, finish_accept_faultedWith h⟩

/-- Settles O58: the fault of SETUP, or the results of FINAL (`finish_accept_results`). -/
theorem meaningGivesTheAnswer : Obligations.MeaningGivesTheAnswer := by
  intro i s hp
  refine ⟨fun c h => exec_faultedWith hp (setup_of_answer_fault h), fun r h => ⟨_, exec_idle hp, ?_⟩⟩
  obtain ⟨p, v0, f0, hs⟩ := setup_of_answer_result h
  obtain ⟨hr0, hr1, hpair⟩ := finish_accept_results h
  refine ⟨finish_accept_completedBy hs, hr0, ?_⟩
  rw [hr1, ← hpair]
  cases r.r1 <;> simp

/-- Outside [-1, 1] the guard of ASIN and ACOS holds (43 R182, R183). -/
theorem setup_out_of_domain {a : Word} (h : S a < -4294967296 ∨ 4294967296 < S a) (b : Word) :
    setup .asin a b = .fault .domain ∧ setup .acos a b = .fault .domain :=
  ⟨if_pos h, if_pos h⟩

/-- Settles O14: SETUP of the three commands faults on these operands. -/
theorem faultingOperands : Obligations.FaultingOperands := by
  intro s hp
  refine ⟨fun h => ?_, fun ha hb => exec_faultedWith hp (if_pos ⟨ha, hb⟩)⟩
  obtain ⟨hasin, hacos⟩ := setup_out_of_domain h s.b
  exact ⟨exec_faultedWith hp hasin, exec_faultedWith hp hacos⟩


/-! ### A command in flight -/

/-- The number of micro-steps a command runs (41 R139). -/
def commandLength (i : Instr) (a b : Word) : Nat :=
  match setup i a b with
  | .fault _ => 1
  | .start _ _ _ => 34

/-- The state `n` ITER micro-steps after the state `s` that SETUP left (41 R135, R136). -/
def iterated (n : Nat) (s : State) : State :=
  let q := iterate (currentInstr s) s.v n (workVec s)
  { s with x := q.x, y := q.y, z := q.z, ki := BitVec.ofNat 6 n, phase := if n = iterations then .final else .iter }

/-- The state `n` micro-steps after command `i` was accepted in `s`, while the command is in flight. -/
def inFlight (i : Instr) (s : State) : Nat → State
  | 0 => accept i s
  | n + 1 => iterated n (setupStep (accept i s))

theorem commandLength_of_fault {i : Instr} {a b : Word} {c : Cause} (h : setup i a b = .fault c) :
    commandLength i a b = 1 := by
  simp only [commandLength, h]

theorem commandLength_of_start {i : Instr} {a b : Word} {p : Vec} {v0 f0 : Option Word}
    (h : setup i a b = .start p v0 f0) : commandLength i a b = 34 := by
  simp only [commandLength, h]

theorem commandLength_eq (i : Instr) (a b : Word) : commandLength i a b = 1 ∨ commandLength i a b = 34 := by
  cases h : setup i a b with
  | fault c => exact .inl (commandLength_of_fault h)
  | start p v0 f0 => exact .inr (commandLength_of_start h)

theorem setupStep_accept_of_start {i : Instr} {s : State} {p : Vec} {v0 f0 : Option Word}
    (h : setup i s.a s.b = .start p v0 f0) : setupStep (accept i s) = start p v0 f0 (accept i s) :=
  setupStep_of_start (by rw [currentInstr_accept]; exact h)

theorem setupStep_accept_of_fault {i : Instr} {s : State} {c : Cause} (h : setup i s.a s.b = .fault c) :
    setupStep (accept i s) = raise c (accept i s) :=
  setupStep_of_fault (by rw [currentInstr_accept]; exact h)

/-! ### Its micro-steps -/

theorem iterated_phase_of_lt {n : Nat} (h : n < 32) (s : State) : (iterated n s).phase = .iter :=
  if_neg (by rw [iterations_eq]; omega)

theorem iterated_ki_toNat {n : Nat} (h : n ≤ 32) (s : State) : (iterated n s).ki.toNat = n := by
  simp only [iterated, BitVec.toNat_ofNat]
  omega

@[simp] theorem currentInstr_iterated (n : Nat) (s : State) : currentInstr (iterated n s) = currentInstr s := rfl

@[simp] theorem workVec_iterated (n : Nat) (s : State) :
    workVec (iterated n s) = iterate (currentInstr s) s.v n (workVec s) := rfl

theorem currentInstr_start_accept (i : Instr) (p : Vec) (v0 f0 : Option Word) (s : State) :
    currentInstr (start p v0 f0 (accept i s)) = i := currentInstr_accept i s

/-- SETUP leaves the engine before its first ITER step. -/
theorem iterated_zero_start (p : Vec) (v0 f0 : Option Word) (s : State) : iterated 0 (start p v0 f0 s) = start p v0 f0 s :=
  rfl

/-- One ITER micro-step, from any state. -/
theorem micro_iterated {n : Nat} (h : n < 32) (s : State) : micro (iterated n s) = .next (iterated (n + 1) s) := by
  have hki := iterated_ki_toNat h.le s
  have hlast : (iterated n s).ki = 31#6 ↔ n + 1 = iterations := by
    rw [← BitVec.toNat_inj, hki, iterations_eq]
    simp
  rw [micro_iter (iterated_phase_of_lt h s) (by rw [hki]; exact h), iterStep, advance, hki, currentInstr_iterated,
    workVec_iterated]
  simp only [hlast]
  simp only [iterated, ← iterate_succ, BitVec.ofNat_add]

/-- FINAL after the 32 ITER micro-steps ends in the meaning of the command. -/
theorem finalStep_iterated {i : Instr} {s : State} {p : Vec} {v0 f0 : Option Word}
    (h : setup i s.a s.b = .start p v0 f0) :
    finalStep (iterated 32 (start p v0 f0 (accept i s))) = finish i (accept i s) := by
  rw [finish_start (s := accept i s) h, finalStep, currentInstr_iterated, workVec_iterated, currentInstr_start_accept]
  simp only [iterated, currentInstr_start_accept]
  rfl

/-- Before its last micro-step a command goes on to the next state in flight. -/
theorem micro_inFlight {i : Instr} {s : State} {n : Nat} (h : n + 1 < commandLength i s.a s.b) :
    micro (inFlight i s n) = .next (inFlight i s (n + 1)) := by
  cases hs : setup i s.a s.b with
  | fault c => rw [commandLength_of_fault hs] at h; omega
  | start p v0 f0 =>
    rw [commandLength_of_start hs] at h
    cases n with
    | zero => rw [inFlight, inFlight, micro_setup rfl, setupStep_accept_of_start hs, iterated_zero_start]
    | succ n => exact micro_iterated (by omega) _

/-- The last micro-step of a command, FINAL or the SETUP that faults, ends in its meaning (41 R138). -/
theorem micro_inFlight_last {i : Instr} {s : State} {n : Nat} (h : n + 1 = commandLength i s.a s.b) :
    micro (inFlight i s n) = .next (finish i (accept i s)) := by
  cases hs : setup i s.a s.b with
  | fault c =>
    rw [commandLength_of_fault hs] at h
    obtain rfl : n = 0 := by omega
    rw [inFlight, micro_setup rfl, setupStep_accept_of_fault hs, finish_fault (s := accept i s) hs]
  | start p v0 f0 =>
    rw [commandLength_of_start hs] at h
    obtain rfl : n = 33 := by omega
    rw [inFlight, micro_final rfl, setupStep_accept_of_start hs, finalStep_iterated hs]

/-! ### What belongs to the host -/

/-- The state `s` after the host has changed what is its own: OVR, the word last read, the schedule, and the model's counter
of free values that its reads advance. -/
def withHost (ovr : Bool) (free : Nat) (rdata : Word) (events : List Event) (s : State) : State :=
  { s with ovr := ovr, free := free, rdata := rdata, events := events }

section
variable (ovr : Bool) (free : Nat) (rdata : Word) (events : List Event) (s : State)

@[simp] theorem withHost_a : (withHost ovr free rdata events s).a = s.a := rfl
@[simp] theorem withHost_b : (withHost ovr free rdata events s).b = s.b := rfl
@[simp] theorem withHost_ovr : (withHost ovr free rdata events s).ovr = ovr := rfl
@[simp] theorem withHost_events : (withHost ovr free rdata events s).events = events := rfl

/-- SETUP touches nothing of the host's. -/
theorem setupStep_withHost : setupStep (withHost ovr free rdata events s) = withHost ovr free rdata events (setupStep s) := by
  rcases setupStep_cases s with ⟨c, hs, he⟩ | ⟨p, v0, f0, hs, he⟩ <;> rw [he]
  · exact setupStep_of_fault hs
  · exact setupStep_of_start hs

/-- Nor does any other micro-step of a command in flight. -/
theorem inFlight_withHost (i : Instr) (n : Nat) :
    inFlight i (withHost ovr free rdata events s) n = withHost ovr free rdata events (inFlight i s n) := by
  cases n with
  | zero => rfl
  | succ n => exact congrArg (iterated n) (setupStep_withHost ovr free rdata events (accept i s))

end

/-- A command in flight has what belongs to the host as it was at the CMD write. -/
theorem inFlight_eq_withHost (i : Instr) (s : State) (n : Nat) :
    inFlight i s n = withHost s.ovr s.free s.rdata s.events (inFlight i s n) :=
  inFlight_withHost s.ovr s.free s.rdata s.events s i n

theorem inFlight_ovr (i : Instr) (s : State) (n : Nat) : (inFlight i s n).ovr = s.ovr := by
  rw [inFlight_eq_withHost, withHost_ovr]

theorem inFlight_events (i : Instr) (s : State) (n : Nat) : (inFlight i s n).events = s.events := by
  rw [inFlight_eq_withHost, withHost_events]

theorem inFlight_busy (i : Instr) (s : State) (n : Nat) : (inFlight i s n).phase ≠ .idle := by
  cases n with
  | zero => simp [inFlight]
  | succ n => simp only [inFlight, iterated]; split <;> simp

/-! ### The engine alone -/

/-- With nothing scheduled the engine brings an accepted command forward one micro-step at a time. -/
theorem run_inFlight {i : Instr} {s : State} (he : s.events = []) {n : Nat} (h : n < commandLength i s.a s.b) :
    Sys2Proof.core.run n (accept i s) = .next (inFlight i s n) := by
  induction n with
  | zero => rfl
  | succ n ih =>
    have hstep : step (inFlight i s n) = .next (inFlight i s (n + 1)) :=
      (step_nil ((inFlight_events i s n).trans he)).trans (micro_inFlight h)
    exact (run_add _ 1 (ih (by omega))).trans (run_succ Sys2Proof.core hstep)

/-- After its last micro-step the engine is idle in the state the meaning gives, and stays there. -/
theorem run_command_alone {i : Instr} {s : State} (he : s.events = []) (n : Nat) :
    Sys2Proof.core.run (commandLength i s.a s.b + n) (accept i s) = .next (finish i (accept i s)) := by
  have hlen := commandLength_eq i s.a s.b
  obtain ⟨k, hk⟩ : ∃ k, k + 1 = commandLength i s.a s.b := ⟨commandLength i s.a s.b - 1, by omega⟩
  have hlast : step (inFlight i s k) = .next (finish i (accept i s)) :=
    (step_nil ((inFlight_events i s k).trans he)).trans (micro_inFlight_last hk)
  obtain ⟨hphase, -, hevents⟩ := finish_phase_ovr_events i (accept i s)
  rw [← hk, Nat.add_assoc, Nat.add_comm 1 n]
  exact (run_add _ (n + 1) (run_inFlight he (by omega))).trans
    ((run_succ Sys2Proof.core hlast).trans (run_idle n (hevents.trans he) hphase))

/-- Settles O55: the CMD write accepts the command, its micro-steps end in its meaning, and the idle engine keeps it for the
rest of the 34. -/
theorem microStepsRefineTheCommand : Obligations.MicroStepsRefineTheCommand := by
  intro i s hp he
  have hcmd : step s = .next (accept i { s with events := [] }) :=
    (step_bus he).trans (congrArg _ (transact_commandTransaction (s := { s with events := [] }) hp i))
  obtain ⟨k, hk⟩ : ∃ k, 34 = commandLength i s.a s.b + k :=
    Nat.exists_eq_add_of_le (by have := commandLength_eq i s.a s.b; omega)
  have hend : Sys2Proof.core.run 34 (accept i { s with events := [] }) =
      .next (finish i (accept i { s with events := [] })) := by
    rw [hk]
    exact run_command_alone (s := { s with events := [] }) rfl k
  exact (run_succ Sys2Proof.core hcmd).trans (hend.trans (exec_idle (s := { s with events := [] }) hp).symm)

/-- Settles O57: the states in flight have the PHASE and KI of the rule, and after the last micro-step the engine is idle. -/
theorem fixedStepCount : Obligations.FixedStepCount := by
  intro i s _ he
  obtain ⟨hidle, -, -⟩ := finish_phase_ovr_events i (accept i s)
  refine ⟨fun c hs => ⟨finish i (accept i s), micro_inFlight_last (n := 0) (commandLength_of_fault hs).symm, hidle⟩,
    fun p v0 f0 hs n hn => ?_⟩
  have hlen := commandLength_of_start hs
  rcases Nat.lt_or_eq_of_le hn with hlt | rfl
  · refine ⟨inFlight i s n, run_inFlight he (by omega), ?_⟩
    cases n with
    | zero => simp [inFlight]
    | succ n =>
      have hki := iterated_ki_toNat (show n ≤ 32 by omega) (setupStep (accept i s))
      refine ⟨by omega, fun _ h => ⟨iterated_phase_of_lt (by omega) _, by rw [inFlight, hki]⟩, fun h => ?_, by omega⟩
      obtain rfl : n = 32 := by omega
      exact ⟨rfl, rfl⟩
  · have hrun := run_command_alone (i := i) he 0
    rw [hlen] at hrun
    exact ⟨finish i (accept i s), hrun, by omega, by omega, by omega, fun _ => hidle⟩

/-! ### Host transactions between the micro-steps (41 R138, R141) -/

/-- A transaction while a command is in flight leaves it in flight after as many micro-steps. -/
theorem step_bus_inFlight (i : Instr) {s : State} {tr : Transaction} {rest : List Event} (n : Nat)
    (he : s.events = .bus tr :: rest) :
    ∃ w f, step (inFlight i s n) = .next (inFlight i (withHost (ovrAfterEvent s.ovr (.bus tr)) f w rest s) n) := by
  obtain ⟨w, f, htr⟩ := transact_busy (s := { inFlight i s n with events := rest }) (inFlight_busy i s n) tr
  refine ⟨w, f, (step_bus ((inFlight_events i s n).trans he)).trans (congrArg _ (htr.trans ?_))⟩
  rw [inFlight_withHost, ← inFlight_ovr i s n]
  rfl

/-- A micro event of a command in flight is its next micro-step. -/
theorem step_micro_inFlight (i : Instr) {s : State} {rest : List Event} (n : Nat) (he : s.events = .micro :: rest) :
    step (inFlight i s n) = micro (inFlight i (withHost s.ovr s.free s.rdata rest s) n) := by
  have h := congrArg (fun t : State => { t with events := rest }) (inFlight_eq_withHost i s n)
  exact (step_micro ((inFlight_events i s n).trans he)).trans
    (congrArg micro (h.trans (inFlight_withHost s.ovr s.free s.rdata rest s i n).symm))

/-- Transactions and micro-steps of a command in flight, in any order, up to the last micro-step. -/
theorem run_inFlight_interleaved {i : Instr} {between after : List Event} {s : State} {n : Nat}
    (hb : ∀ e ∈ between, e = .micro ∨ ∃ tr, e = .bus tr) (he : s.events = between ++ after)
    (hn : n + between.count .micro < commandLength i s.a s.b) :
    ∃ w f, Sys2Proof.core.run between.length (inFlight i s n) =
      .next (inFlight i (withHost (ovrAfter s.ovr between) f w after s) (n + between.count .micro)) := by
  induction between generalizing s n with
  | nil =>
    obtain rfl : s.events = after := he
    exact ⟨s.rdata, s.free, rfl⟩
  | cons e es ih =>
    rw [List.forall_mem_cons] at hb
    obtain ⟨rfl | ⟨tr, rfl⟩, hes⟩ := hb
    · rw [List.count_cons_self, ← Nat.add_assoc, Nat.add_right_comm] at hn ⊢
      have hstep := (step_micro_inFlight i n he).trans (micro_inFlight (by simp only [withHost_a, withHost_b]; omega))
      obtain ⟨w, f, hrun⟩ := ih (s := withHost s.ovr s.free s.rdata (es ++ after) s) hes rfl hn
      exact ⟨w, f, (run_succ Sys2Proof.core hstep).trans hrun⟩
    · rw [List.count_cons_of_ne (by simp)] at hn ⊢
      obtain ⟨w, f, hstep⟩ := step_bus_inFlight i n he
      obtain ⟨w', f', hrun⟩ := ih (s := withHost (ovrAfterEvent s.ovr (.bus tr)) f w (es ++ after) s) hes rfl hn
      exact ⟨w', f', (run_succ Sys2Proof.core hstep).trans hrun⟩

/-- Whatever transactions fall between its micro-steps, a command ends in its meaning, taken in a state that differs only in
what belongs to the host. -/
theorem run_command_interleaved {i : Instr} {s : State} {between after : List Event} (hp : s.phase = .idle)
    (he : s.events = .bus (commandTransaction i) :: between ++ .micro :: after)
    (hb : ∀ e ∈ between, e = .micro ∨ ∃ tr, e = .bus tr) (hcount : between.count .micro + 1 = commandLength i s.a s.b) :
    ∃ w f, Sys2Proof.core.run (between.length + 2) s =
      .next (finish i (accept i (withHost (ovrAfter s.ovr between) f w after s))) := by
  have hcmd : step s = .next (accept i { s with events := between ++ .micro :: after }) :=
    (step_bus he).trans
      (congrArg _ (transact_commandTransaction (s := { s with events := between ++ .micro :: after }) hp i))
  obtain ⟨w, f, hrun⟩ := run_inFlight_interleaved (i := i) (s := { s with events := between ++ .micro :: after }) (n := 0)
    hb rfl (by simp only; omega)
  refine ⟨w, f, (run_succ Sys2Proof.core hcmd).trans ((run_add _ 1 hrun).trans (run_succ Sys2Proof.core ?_))⟩
  exact (step_micro_inFlight i _ rfl).trans (micro_inFlight_last (by rw [Nat.zero_add]; exact hcount))

/-! ### OVR (41 R141) -/

/-- An event that is no clearing STATUS write leaves OVR set exactly when it was or the event is a dropped write. -/
theorem ovrAfterEvent_eq_true_iff {e : Event} (h : ∀ w, w.getLsbD 3 = true → .bus ⟨true, Addr.STATUS, w⟩ ≠ e)
    (ovr : Bool) :
    ovrAfterEvent ovr e = true ↔
      ovr = true ∨ ∃ addr w, .bus ⟨true, addr, w⟩ = e ∧ (addr = Addr.A ∨ addr = Addr.B ∨ addr = Addr.CMD) := by
  cases e with
  | micro | command | poll | copy | reset => simp [ovrAfterEvent]
  | bus tr =>
    obtain ⟨we, addr, w⟩ := tr
    cases we with
    | false => simp [ovrAfterEvent]
    | true =>
      have hclear : ¬ (addr = Addr.STATUS ∧ w.getLsbD 3 = true) := fun ⟨ha, hw⟩ => h w hw (ha ▸ rfl)
      simp only [ovrAfterEvent, if_neg hclear]
      split <;> simp [*]

/-- Where no STATUS write clears it, OVR is 1 exactly when it was 1 before or one of the events is a dropped write (log 11). -/
theorem ovrAfter_eq_true_iff {es : List Event} (h : ∀ w, w.getLsbD 3 = true → .bus ⟨true, Addr.STATUS, w⟩ ∉ es)
    (ovr : Bool) :
    ovrAfter ovr es = true ↔
      ovr = true ∨ ∃ addr w, .bus ⟨true, addr, w⟩ ∈ es ∧ (addr = Addr.A ∨ addr = Addr.B ∨ addr = Addr.CMD) := by
  induction es generalizing ovr with
  | nil => simp
  | cons e es ih =>
    rw [ovrAfter_cons, ih fun w hw hm => h w hw (List.mem_cons_of_mem e hm),
      ovrAfterEvent_eq_true_iff fun w hw he => h w hw (he ▸ List.mem_cons_self)]
    simp only [List.mem_cons, or_and_right, exists_or, or_assoc]

/-! ### What the host sees at the end (41 R138) -/

/-- After a fault neither result register can be read. -/
theorem FaultedWith.reads {i : Instr} {c : Cause} {s t : State} (h : FaultedWith i c s t) :
    readRegister Addr.R0 t = none ∧ readRegister Addr.R1 t = none :=
  ⟨by rw [readRegister_R0, h.done_eq]; rfl, readRegister_R1_invalid (.inl h.done_eq)⟩

/-- After a command that completes the host reads its results. -/
theorem finish_accept_reads {i : Instr} {s : State} {r : Results} (h : answer i s.a s.b = .result r) :
    readRegister Addr.R0 (finish i (accept i s)) = some r.r0 ∧ readRegister Addr.R1 (finish i (accept i s)) = r.r1 := by
  obtain ⟨p, v0, f0, hs⟩ := setup_of_answer_result h
  have hc := finish_accept_completedBy hs
  obtain ⟨hr0, hr1, hpair⟩ := finish_accept_results h
  rw [readRegister_R0, readRegister_R1, currentInstr, hc.done_eq, hc.func_eq, Instr.ofCode_code, hr0, hr1, ← hpair]
  cases r.r1 <;> simp

/-- Settles O56: both rows by `run_command_interleaved`, with 33 or no micro-steps before the last; OVR by
`ovrAfter_eq_true_iff`. -/
theorem interleavingCannotChangeTheResult : Obligations.InterleavingCannotChangeTheResult := by
  intro i s between after hp he hb
  refine ⟨fun r hr hcount => ?_, fun c hc hcount => ?_, fun h => ovrAfter_eq_true_iff h s.ovr⟩
  · obtain ⟨p, v0, f0, hs⟩ := setup_of_answer_result hr
    obtain ⟨w, f, hrun⟩ := run_command_interleaved hp he hb (by rw [hcount, commandLength_of_start hs])
    have hcomp := finish_accept_completedBy (s := withHost (ovrAfter s.ovr between) f w after s) hs
    obtain ⟨hr0, hr1, -⟩ := finish_accept_results (s := withHost (ovrAfter s.ovr between) f w after s) hr
    obtain ⟨hread0, hread1⟩ := finish_accept_reads (s := withHost (ovrAfter s.ovr between) f w after s) hr
    exact ⟨_, hrun, hcomp.phase_eq, hcomp.done_eq, hcomp.err_eq, hcomp.cause_eq, hcomp.func_eq, hr0,
      fun w' hw => by rw [hr1, hw, Option.getD_some], hread0, hread1, hcomp.frame.a_eq, hcomp.frame.b_eq,
      hcomp.frame.events_eq, hcomp.frame.ovr_eq⟩
  · have hs := setup_of_answer_fault hc
    obtain ⟨w, f, hrun⟩ := run_command_interleaved hp he hb (by rw [hcount, commandLength_of_fault hs])
    have hfault := finish_accept_faultedWith (s := withHost (ovrAfter s.ovr between) f w after s) hs
    obtain ⟨hread0, hread1⟩ := hfault.reads
    exact ⟨_, hrun, hfault.phase_eq, hfault.done_eq, hfault.err_eq, hfault.cause_eq, hfault.func_eq, hread0, hread1,
      hfault.frame.a_eq, hfault.frame.b_eq, hfault.frame.events_eq, hfault.frame.ovr_eq⟩

end Sys2Proof.Machine
end

section
/-! PROOFS. The family of spec/42_rotation_mode.md: the argument reduction (O18, O19, O20), the rotation step (O16), the bounds on
the angle and on the vector along the 32 steps (O21, O22), the gain multiply and the division of TAN (O23), and the four commands
(O6, O7, O8, O9, O26). -/

namespace Sys2Proof.Machine

open Sys2Proof.Const Sys2Proof.Fixed

/-! ### The argument reduction (42 R160) -/

theorem S_TWO_PI : S TWO_PI = 26986075410 := by decide

theorem S_PI : S PI = 13493037705 := by decide

theorem S_HALF_PI : S HALF_PI = 6746518852 := by decide

theorem S_THREE_HALF_PI : S THREE_HALF_PI = 20239556557 := by decide

/-- A negative truncating remainder is one period below the floored one. -/
theorem tmod_twoPi (n : Int) :
    (0 ≤ n.tmod 26986075410 ∧ n.tmod 26986075410 = n % 26986075410) ∨
    (n.tmod 26986075410 < 0 ∧ n.tmod 26986075410 + 26986075410 = n % 26986075410) := by
  rw [Int.tmod_eq_emod]
  split <;> omega

/-- Step 1 of the reduction gives the floored remainder. -/
theorem S_reduceTurn (θ : Word) : S (reduceTurn θ) = S θ % 26986075410 := by
  have hrem : S (rem θ TWO_PI two_pi_ne_zero) = (S θ).tmod 26986075410 := by rw [S_rem, S_TWO_PI]
  rw [reduceTurn]
  rcases tmod_twoPi (S θ) with ⟨hpos, hmod⟩ | ⟨hneg, hmod⟩
  · rw [if_neg (by omega), hrem, hmod]
  · rw [if_pos (by omega), S_add, hrem, S_TWO_PI, hmod] <;> rw [hrem, S_TWO_PI] <;> omega

theorem reduce_of_lower {θ : Word} (h : S (reduceTurn θ) ≤ 6746518852) : reduce θ = (reduceTurn θ, Rom.gainK) := by
  have h1 : ¬ (S HALF_PI < S (reduceTurn θ) ∧ S (reduceTurn θ) < S THREE_HALF_PI) := by rw [S_HALF_PI]; omega
  have h2 : ¬ S THREE_HALF_PI ≤ S (reduceTurn θ) := by rw [S_THREE_HALF_PI]; omega
  rw [reduce, if_neg h1, if_neg h2]

theorem reduce_of_middle {θ : Word} (h1 : 6746518852 < S (reduceTurn θ)) (h2 : S (reduceTurn θ) < 20239556557) :
    reduce θ = (sub (reduceTurn θ) PI, Rom.gainNegK) := by
  rw [← S_HALF_PI] at h1
  rw [← S_THREE_HALF_PI] at h2
  rw [reduce, if_pos ⟨h1, h2⟩]

theorem reduce_of_upper {θ : Word} (h : 20239556557 ≤ S (reduceTurn θ)) :
    reduce θ = (sub (reduceTurn θ) TWO_PI, Rom.gainK) := by
  rw [← S_THREE_HALF_PI] at h
  rw [reduce, if_neg (by omega), if_pos h]

/-- Settles O18: step 1 by `S_reduceTurn`, one lemma for each interval, and no subtraction leaves the range of a word. -/
theorem reductionByIntervals : Obligations.ReductionByIntervals := by
  intro θ
  have hlt : S θ % 26986075410 < 26986075410 := Int.emod_lt_of_pos _ (by norm_num)
  rw [← S_reduceTurn] at hlt ⊢
  refine ⟨rfl, fun h => ?_, fun h1 h2 => ?_, fun h => ?_⟩
  · rw [reduce_of_lower h]
    exact ⟨rfl, Rom.gainK_eq⟩
  · rw [reduce_of_middle h1 h2]
    exact ⟨by rw [S_sub, S_PI] <;> rw [S_PI] <;> omega, Rom.gainNegK_eq⟩
  · rw [reduce_of_upper h]
    exact ⟨by rw [S_sub, S_TWO_PI] <;> rw [S_TWO_PI] <;> omega, Rom.gainK_eq⟩

/-- The range of the reduced angle, and the two gain factors (42 R162). -/
theorem reduce_range (θ : Word) :
    -6746518853 ≤ S (reduce θ).1 ∧ S (reduce θ).1 ≤ 6746518852 ∧
    ((reduce θ).2 = 0x000000009B74EDA8#64 ∨ (reduce θ).2 = 0xFFFFFFFF648B1258#64) := by
  obtain ⟨-, hlower, hmiddle, hupper⟩ := reductionByIntervals θ
  rcases lt_or_ge 6746518852 (S θ % 26986075410) with h1 | h1
  · rcases lt_or_ge (S θ % 26986075410) 20239556557 with h2 | h2
    · obtain ⟨hz, hf⟩ := hmiddle h1 h2
      exact ⟨by omega, by omega, .inr hf⟩
    · obtain ⟨hz, hf⟩ := hupper h2
      exact ⟨by omega, by omega, .inl hf⟩
  · obtain ⟨hz, hf⟩ := hlower h1
    exact ⟨by omega, by omega, .inl hf⟩

/-- Settles O19: the range by the intervals, the table row by row. -/
theorem reducedAngleRange : Obligations.ReducedAngleRange := ⟨reduce_range, by decide⟩

/-- The reduction reads the operand only modulo one period (42 R171). -/
theorem reduce_congr {θ1 θ2 : Word} (h : S θ1 % 26986075410 = S θ2 % 26986075410) : reduce θ1 = reduce θ2 := by
  have hturn : reduceTurn θ1 = reduceTurn θ2 := word_ext (by rw [S_reduceTurn, S_reduceTurn, h])
  rw [reduce, reduce, hturn]

/-! ### The rotation step (42 R163) -/

theorem rotate_of_pos {p : Vec} (h : 0 < S p.z) (k : Nat) :
    rotate k p = ⟨sub p.x (asr p.y k), add (asr p.x k) p.y, sub p.z (Rom.angle k)⟩ := if_pos h

theorem rotate_of_nonpos {p : Vec} (h : S p.z ≤ 0) (k : Nat) :
    rotate k p = ⟨add p.x (asr p.y k), sub p.y (asr p.x k), add p.z (Rom.angle k)⟩ := if_neg (not_lt.2 h)

/-- Settles O16: the step of every rotation-mode command is `rotate`, in the direction of the sign of Z. -/
theorem rotationStep : Obligations.RotationStep := by
  intro i k p v hi
  rw [iter_rotation hi]
  exact ⟨fun h => rotate_of_pos h k, fun h => rotate_of_nonpos h k⟩

/-- The start vector of the four rotation-mode commands (42 R161). -/
def rotationStart (θ : Word) : Vec := ⟨ONE, ZERO, (reduce θ).1⟩

/-- What holds of the start vector of every operand, and what every step with an index below 32 takes on to the next index, holds
along every rotation. -/
theorem rotation_invariant {P : Nat → Vec → Prop} (hstart : ∀ θ, P 0 (rotationStart θ))
    (hstep : ∀ k < 32, ∀ p, P k p → P (k + 1) (rotate k p)) {i : Instr} (hi : i.isRotation = true) (θ v : Word) {k : Nat}
    (hk : k ≤ 32) : P k (iterate i v k (rotationStart θ)) := by
  induction k with
  | zero => exact hstart θ
  | succ k ih =>
    rw [iterate_succ, iter_rotation hi]
    exact hstep k (by omega) _ (ih (by omega))

/-! ### The residual angle (42 R164, first part) -/

/-- The angles from step `k` on, added up. -/
def remainingAngles (k : Nat) : Int := (((List.range 32).drop k).map fun j => S (Rom.angle j)).sum

theorem remainingAngles_succ (k : Nat) : remainingAngles (k + 1) = Rom.laterAngles k := rfl

theorem remainingAngles_eq {k : Nat} (hk : k < 32) :
    remainingAngles k = S (Rom.angle k) + Rom.laterAngles k := by
  rw [remainingAngles, List.drop_eq_getElem_cons (by simpa using hk), List.map_cons, List.sum_cons, List.getElem_range]
  rfl

/-- `Rom.angle_le_laterAngles_add_nine` for the last step too, which no angle follows. -/
theorem angle_le_laterAngles_of_lt_32 {k : Nat} (hk : k < 32) : S (Rom.angle k) ≤ Rom.laterAngles k + 9 := by
  rcases Nat.lt_succ_iff_lt_or_eq.1 hk with h | rfl
  · exact Rom.angle_le_laterAngles_add_nine h
  · decide

theorem laterAngles_le : ∀ k < 32, Rom.laterAngles k ≤ 7487359006 := by decide

/-- One step brings an angle within reach of the angles from `k` on within reach of the later ones: it is taken back by `angle k`,
or it overshoots by at most `angle k`. -/
theorem rotate_residual {k : Nat} (hk : k < 32) (p : Vec) (h : |S p.z| ≤ remainingAngles k + 9) :
    |S (rotate k p).z| ≤ remainingAngles (k + 1) + 9 := by
  have hpos := Rom.angle_pos k hk
  have hle := angle_le_laterAngles_of_lt_32 hk
  have hmax := laterAngles_le k hk
  rw [remainingAngles_eq hk, abs_le] at h
  rw [remainingAngles_succ, abs_le]
  rcases lt_or_ge 0 (S p.z) with hz | hz
  · rw [rotate_of_pos hz, S_sub] <;> omega
  · rw [rotate_of_nonpos hz, S_add] <;> omega

/-- The reduced angle is within reach of the 32 table angles (20 R55). -/
theorem rotationStart_residual (θ : Word) : |S (rotationStart θ).z| ≤ remainingAngles 0 + 9 := by
  obtain ⟨hlo, hhi, -⟩ := reduce_range θ
  have hsum : remainingAngles 0 = 7487359006 := Rom.angle_sum
  rw [hsum]
  exact abs_le.2 ⟨hlo.trans' (by norm_num), hhi.trans (by norm_num)⟩

/-- Settles O21: `rotate_residual` along the rotation. -/
theorem rotationResidualIsSmall : Obligations.RotationResidualIsSmall := fun _ θ v _ hi hk =>
  rotation_invariant (P := fun k p => |S p.z| ≤ remainingAngles k + 9) rotationStart_residual
    (fun _ hk p h => rotate_residual hk p h) hi θ v hk

/-! ### The length of the vector (42 R164, second part) -/

/-- The squared length of the vector, in raw units. -/
def normSq (p : Vec) : Int := S p.x ^ 2 + S p.y ^ 2

/-- A bound on the squared length before step `k`: a step multiplies it by `1 + 4^-k`, and the flooring of the two shifts adds
less than `2^37`. -/
def normBound : Nat → Int
  | 0 => 2 ^ 64
  | k + 1 => normBound k + normBound k / (2 ^ k) ^ 2 + 2 ^ 37

/-- The product of all the growths keeps the length within 1.65. -/
theorem normBound_le : ∀ k ≤ 32, 100 ^ 2 * normBound k ≤ (165 * 4294967296) ^ 2 := by decide

/-- A floored quotient as a square: the floor adds less than one unit to the quotient. -/
theorem sq_ediv_mul_le (n : Int) {d : Int} (hd : 0 < d) : (n / d) ^ 2 * d ^ 2 ≤ n ^ 2 + 2 * |n| * d + d ^ 2 := by
  have hr0 := Int.emod_nonneg n hd.ne'
  have hr := Int.emod_lt_of_pos n hd
  have hq : n / d * d = n - n % d := by rw [Int.emod_def]; ring
  have hcross : |n * (n % d)| ≤ |n| * d := by
    rw [abs_mul, abs_of_nonneg hr0]
    exact mul_le_mul_of_nonneg_left hr.le (abs_nonneg n)
  have hsq : (n % d) ^ 2 ≤ d ^ 2 := pow_le_pow_left₀ hr0 hr.le 2
  have hneg := neg_abs_le (n * (n % d))
  calc (n / d) ^ 2 * d ^ 2 = (n / d * d) ^ 2 := by ring
    _ = n ^ 2 - 2 * (n * (n % d)) + (n % d) ^ 2 := by rw [hq]; ring
    _ ≤ n ^ 2 + 2 * |n| * d + d ^ 2 := by linarith

/-- The part of the growth that an exact step has: the shifted vector. -/
theorem sq_shifts_le {x y d : Int} (hd : 0 < d) (hx : |x| ≤ 2 ^ 33) (hy : |y| ≤ 2 ^ 33) :
    (y / d) ^ 2 + (x / d) ^ 2 ≤ (x ^ 2 + y ^ 2) / d ^ 2 + (2 ^ 35 + 2) := by
  have hdd : d ≤ d ^ 2 := by nlinarith
  have hxd : |x| * d ≤ 2 ^ 33 * d ^ 2 := mul_le_mul hx hdd hd.le (by norm_num)
  have hyd : |y| * d ≤ 2 ^ 33 * d ^ 2 := mul_le_mul hy hdd hd.le (by norm_num)
  have hpos : 0 < d ^ 2 := by positivity
  rw [← Int.add_mul_ediv_right _ _ hpos.ne']
  refine Int.le_ediv_of_mul_le hpos ?_
  linarith [sq_ediv_mul_le x hd, sq_ediv_mul_le y hd]

/-- The part an exact step does not have: the shifted vector is at a right angle to the vector up to the floors. -/
theorem abs_cross_shifts_le {x y d : Int} (hd : 0 < d) : |x * (y / d) - y * (x / d)| ≤ |x| + |y| := by
  have hexact : (x * (y / d) - y * (x / d)) * d = y * (x % d) - x * (y % d) := by
    rw [Int.emod_def, Int.emod_def]; ring
  have hpart : ∀ m n : Int, |m * (n % d)| ≤ |m| * d := fun m n => by
    rw [abs_mul, abs_of_nonneg (Int.emod_nonneg n hd.ne')]
    exact mul_le_mul_of_nonneg_left (Int.emod_lt_of_pos n hd).le (abs_nonneg m)
  refine le_of_mul_le_mul_right ?_ hd
  calc |x * (y / d) - y * (x / d)| * d = |y * (x % d) - x * (y % d)| := by
        rw [← hexact, abs_mul, abs_of_pos hd]
    _ ≤ |y * (x % d)| + |x * (y % d)| := abs_sub _ _
    _ ≤ (|x| + |y|) * d := by linarith [hpart y x, hpart x y]

/-- Both directions of the step as integers lengthen the vector alike. -/
theorem sq_step_le {x y d : Int} (hd : 0 < d) (hx : |x| ≤ 2 ^ 33) (hy : |y| ≤ 2 ^ 33) :
    (x - y / d) ^ 2 + (x / d + y) ^ 2 ≤ x ^ 2 + y ^ 2 + (x ^ 2 + y ^ 2) / d ^ 2 + 2 ^ 37 ∧
    (x + y / d) ^ 2 + (y - x / d) ^ 2 ≤ x ^ 2 + y ^ 2 + (x ^ 2 + y ^ 2) / d ^ 2 + 2 ^ 37 := by
  have hshifts := sq_shifts_le hd hx hy
  obtain ⟨hlo, hhi⟩ := abs_le.1 (abs_cross_shifts_le (x := x) (y := y) hd)
  constructor <;> linarith

/-- While the coordinates are below 2, no operation of the step wraps, and the step is the one on integers. -/
theorem S_rotate_vector {p : Vec} (hx : |S p.x| ≤ 2 ^ 33) (hy : |S p.y| ≤ 2 ^ 33) (k : Nat) :
    (S (rotate k p).x = S p.x - S p.y / 2 ^ k ∧ S (rotate k p).y = S p.x / 2 ^ k + S p.y) ∨
    (S (rotate k p).x = S p.x + S p.y / 2 ^ k ∧ S (rotate k p).y = S p.y - S p.x / 2 ^ k) := by
  have hxk := abs_le.1 ((Int.abs_ediv_le_abs (S p.x) (2 ^ k)).trans hx)
  have hyk := abs_le.1 ((Int.abs_ediv_le_abs (S p.y) (2 ^ k)).trans hy)
  rw [abs_le] at hx hy
  simp only [← S_asr] at hxk hyk ⊢
  rcases lt_or_ge 0 (S p.z) with hz | hz
  · rw [rotate_of_pos hz]
    exact .inl ⟨S_sub (by omega) (by omega), S_add (by omega) (by omega)⟩
  · rw [rotate_of_nonpos hz]
    exact .inr ⟨S_add (by omega) (by omega), S_sub (by omega) (by omega)⟩

/-- The bound on the squared length bounds each coordinate. -/
theorem coordinates_of_normSq_le {p : Vec} {k : Nat} (hk : k ≤ 32) (h : normSq p ≤ normBound k) :
    100 * |S p.x| ≤ 165 * 4294967296 ∧ 100 * |S p.y| ≤ 165 * 4294967296 := by
  have hb := normBound_le k hk
  have hcoord : ∀ c : Int, c ^ 2 ≤ normSq p → 100 * |c| ≤ 165 * 4294967296 := fun c hc => by
    have hsq : (100 * c) ^ 2 ≤ (165 * 4294967296) ^ 2 := by linarith [mul_pow 100 c 2]
    simpa [abs_mul] using abs_le_of_sq_le_sq hsq (by norm_num)
  exact ⟨hcoord _ (le_add_of_nonneg_right (sq_nonneg _)), hcoord _ (le_add_of_nonneg_left (sq_nonneg _))⟩

theorem rotate_normSq {k : Nat} (hk : k < 32) (p : Vec) (h : normSq p ≤ normBound k) :
    normSq (rotate k p) ≤ normBound (k + 1) := by
  obtain ⟨hx, hy⟩ := coordinates_of_normSq_le hk.le h
  have hx' : |S p.x| ≤ 2 ^ 33 := by omega
  have hy' : |S p.y| ≤ 2 ^ 33 := by omega
  have hd : (0 : Int) < 2 ^ k := by positivity
  obtain ⟨hpos, hneg⟩ := sq_step_le hd hx' hy'
  have hdiv : normSq p / (2 ^ k) ^ 2 ≤ normBound k / (2 ^ k) ^ 2 := Int.ediv_le_ediv (by positivity) h
  have hgrow : normSq p + normSq p / (2 ^ k) ^ 2 + 2 ^ 37 ≤ normBound (k + 1) := by rw [normBound]; omega
  refine le_trans ?_ hgrow
  rcases S_rotate_vector hx' hy' k with ⟨hx1, hy1⟩ | ⟨hx1, hy1⟩
  · rw [normSq, hx1, hy1]; exact hpos
  · rw [normSq, hx1, hy1]; exact hneg

theorem rotationStart_normSq (θ : Word) : normSq (rotationStart θ) ≤ normBound 0 := by
  have hone : S ONE = 2 ^ 32 := by decide
  have hzero : S ZERO = 0 := by decide
  simp [normSq, rotationStart, normBound, hone, hzero]

/-- Settles O22: `rotate_normSq` along the rotation, and each coordinate is at most the length. -/
theorem rotationVectorStaysBounded : Obligations.RotationVectorStaysBounded := fun _ θ v _ hi hk =>
  coordinates_of_normSq_le hk <|
    rotation_invariant (P := fun k p => normSq p ≤ normBound k) rotationStart_normSq
      (fun _ hk p h => rotate_normSq hk p h) hi θ v hk

/-! ### The gain multiply and the division of TAN (42 R164, R165, R169) -/

/-- 1.65 times the gain is below 1.01, and the floor takes off less than one raw unit. -/
theorem gain_mul_lt {w : Word} (hw : 100 * |S w| ≤ 165 * 4294967296) (θ : Word) :
    100 * |S (mul w (reduce θ).2)| < 101 * 4294967296 := by
  have hK : S 0x000000009B74EDA8#64 = 2608131496 := by decide
  have hNegK : S 0xFFFFFFFF648B1258#64 = -2608131496 := by decide
  have hlo := neg_abs_le (S w)
  have hhi := le_abs_self (S w)
  have hf : S (reduce θ).2 = 2608131496 ∨ S (reduce θ).2 = -2608131496 := by
    obtain ⟨-, -, h | h⟩ := reduce_range θ
    · exact .inl (h ▸ hK)
    · exact .inr (h ▸ hNegK)
  have hprod : -(101 * 4294967296) < 100 * (S w * S (reduce θ).2 / 2 ^ 32) ∧
      100 * (S w * S (reduce θ).2 / 2 ^ 32) < 101 * 4294967296 := by
    rcases hf with hf | hf <;> rw [hf] <;> omega
  rw [S_mul (by omega) (by omega)]
  simpa [abs_mul] using abs_lt.2 hprod

/-- Below MIN no magnitude wraps (40 R104). -/
theorem S_abs {a : Word} (h : S a ≠ -2 ^ 63) : S (Fixed.abs a) = |S a| := by
  rcases lt_or_ge (S a) 0 with ha | ha
  · rw [Fixed.abs, if_neg (not_le.2 ha), S_neg h, abs_of_neg ha]
  · rw [Fixed.abs, if_pos ha, abs_of_nonneg ha]

/-- Settles O23: sine and cosine by `gain_mul_lt`; and a dividend below 1.01 over a divisor of at least 44 raw. -/
theorem tangentQuotientNeverWraps : Obligations.TangentQuotientNeverWraps := by
  intro θ v q sn cs
  obtain ⟨hx, hy⟩ := rotationVectorStaysBounded .tan θ v 32 rfl le_rfl
  have hsn : 100 * |S sn| < 101 * 4294967296 := gain_mul_lt hy θ
  have hcs : 100 * |S cs| < 101 * 4294967296 := gain_mul_lt hx θ
  refine ⟨hsn, hcs, fun h => ?_⟩
  have hmin : S cs ≠ -2 ^ 63 := fun hc => by
    rw [hc] at hcs
    exact absurd hcs (by decide)
  rw [S_abs hmin] at h
  rw [abs_tdiv, abs_mul]
  refine Int.ediv_lt_of_lt_mul (by omega) ?_
  norm_num
  omega

/-! ### The four commands (42 R165 to R169) -/

/-- The vector after the 32 steps on the operand `θ`: the same for the four commands, whatever V holds. -/
def rotated (θ : Word) : Vec := iterate .sincos 0#64 iterations (rotationStart θ)

theorem iterate_rotationStart {i : Instr} (hi : i.isRotation = true) (θ v : Word) :
    iterate i v iterations (rotationStart θ) = rotated θ := iterate_rotation hi rfl v 0#64 iterations _

/-- FINAL of a rotation-mode command does not read operand A. -/
theorem final_rotation {i : Instr} (hi : i.isRotation = true) (p : Vec) (f a a' : Word) : final i p f a = final i p f a' := by
  cases i with
  | sincos | sin | cos | tan => rfl
  | asin | acos | atan | atan2 => cases hi

/-- The answer of a rotation-mode command: FINAL on the rotated vector and the gain factor. -/
theorem answer_rotation {i : Instr} (hi : i.isRotation = true) (θ b : Word) :
    answer i θ b = .result (final i (rotated θ) (reduce θ).2 θ) := by
  have hsetup : setup i θ b = .start (rotationStart θ) none (some (reduce θ).2) := setup_rotation hi θ b
  rw [answer_of_start hsetup 0#64 0#64, iterate_rotationStart hi]
  rfl

/-- Settles O26: one rotated vector, of which FINAL of the three commands takes both components, the first, and the second. -/
theorem sinAndCosAreTheComponentsOfSincos : Obligations.SinAndCosAreTheComponentsOfSincos := fun a b =>
  ⟨sine (rotated a) (reduce a).2, cosine (rotated a) (reduce a).2,
    answer_rotation rfl a b, answer_rotation rfl a b, answer_rotation rfl a b⟩

theorem rotated_congr {θ1 θ2 : Word} (h : reduce θ1 = reduce θ2) : rotated θ1 = rotated θ2 := by
  rw [rotated, rotated, rotationStart, rotationStart, h]

/-- Settles O20: the answer reads the operand through its reduction alone, and the reduction modulo one period. -/
theorem rotationIsExactlyPeriodic : Obligations.RotationIsExactlyPeriodic := by
  intro i θ1 θ2 b n hi h
  have hred : reduce θ1 = reduce θ2 := reduce_congr (by omega)
  rw [answer_rotation hi, answer_rotation hi, rotated_congr hred, hred, final_rotation hi _ _ θ1 θ2]

/-- What a rotation-mode command taken while idle leaves (41 R137, R138). -/
theorem exec_rotation {i : Instr} (hi : i.isRotation = true) {s t : State} (hs : s.phase = .idle) (ht : exec i s = .next t) :
    let r := final i (rotated s.a) (reduce s.a).2 s.a
    CompletedBy i s t ∧ t.r0 = r.r0 ∧ (∀ w, r.r1 = some w → t.r1 = w) ∧ readRegister Addr.R1 t = r.r1 := by
  cases (exec_idle hs).symm.trans ht
  have hans := answer_rotation hi s.a s.b
  obtain ⟨p, v0, f0, hsetup⟩ := setup_of_answer_result hans
  obtain ⟨hr0, hr1, -⟩ := finish_accept_results hans
  obtain ⟨-, hread⟩ := finish_accept_reads hans
  exact ⟨finish_accept_completedBy hsetup, hr0, fun w hw => by rw [hr1, hw, Option.getD_some], hread⟩

/-- SINCOS from an idle state (42 R166). -/
theorem exec_sincos {s t : State} (hs : s.phase = .idle) (ht : exec .sincos s = .next t) :
    CompletedBy .sincos s t ∧ t.r0 = sine (rotated s.a) (reduce s.a).2 ∧ t.r1 = cosine (rotated s.a) (reduce s.a).2 := by
  obtain ⟨hc, hr0, hr1, -⟩ := exec_rotation rfl hs ht
  exact ⟨hc, hr0, hr1 _ rfl⟩

/-- The operand 0 gives not exactly (0, 1) (42 R166). -/
theorem sincos_zero :
    sine (rotated 0#64) (reduce 0#64).2 = 1#64 ∧ cosine (rotated 0#64) (reduce 0#64).2 = 0x0000000100000003#64 := by
  decide +kernel

/-- The worked example, a sixth of pi (42 R166). -/
theorem sincos_sixth_of_pi :
    sine (rotated 0x00000000860A91C1#64) (reduce 0x00000000860A91C1#64).2 = 0x000000007FFFFFFD#64 ∧
    cosine (rotated 0x00000000860A91C1#64) (reduce 0x00000000860A91C1#64).2 = 0x00000000DDB3D743#64 := by
  decide +kernel

/-- Settles O6: the results of `exec_sincos`, evaluated at the two operands; one period higher the reduction is the same. -/
theorem sincosCompletes : Obligations.SincosCompletes := by
  intro s hs q f
  have hq : q = rotated s.a := iterate_rotationStart rfl s.a s.v
  obtain ⟨t, ht⟩ : ∃ t, exec .sincos s = .next t := ⟨_, exec_idle hs⟩
  obtain ⟨hc, hr0, hr1⟩ := exec_sincos hs ht
  refine ⟨by decide, t, ht, hq ▸ hr0, hq ▸ hr1, hc, fun ha => ?_, fun ha => ?_, fun s' hs' ha => ?_⟩
  · rw [hr0, hr1, ha, sincos_zero.1, sincos_zero.2]
    decide
  · rw [hr0, hr1, ha]
    exact sincos_sixth_of_pi
  · have ht' := exec_idle (i := .sincos) hs'
    obtain ⟨-, hr0', hr1'⟩ := exec_sincos hs' ht'
    have hred : reduce s'.a = reduce s.a := reduce_congr (by rw [S_TWO_PI] at ha; omega)
    rw [rotated_congr hred, hred] at hr0' hr1'
    exact ⟨_, ht', hr0'.trans hr0.symm, hr1'.trans hr1.symm⟩

/-- Settles O7: SIN and SINCOS form their sine of the same rotated vector. -/
theorem sinCompletes : Obligations.SinCompletes := by
  intro s hs q
  have hq : q = rotated s.a := iterate_rotationStart rfl s.a s.v
  obtain ⟨t, ht⟩ : ∃ t, exec .sin s = .next t := ⟨_, exec_idle hs⟩
  obtain ⟨hc, hr0, -, hread⟩ := exec_rotation rfl hs ht
  refine ⟨by decide, t, ht, hq ▸ hr0, hread, hc, fun t' ht' => ?_, fun ha => ?_⟩
  · obtain ⟨-, hsine, -⟩ := exec_sincos hs ht'
    exact hr0.trans hsine.symm
  · rw [ha] at hr0
    exact hr0.trans sincos_sixth_of_pi.1

/-- Settles O8: COS and SINCOS form their cosine of the same rotated vector. -/
theorem cosCompletes : Obligations.CosCompletes := by
  intro s hs q
  have hq : q = rotated s.a := iterate_rotationStart rfl s.a s.v
  obtain ⟨t, ht⟩ : ∃ t, exec .cos s = .next t := ⟨_, exec_idle hs⟩
  obtain ⟨hc, hr0, -, hread⟩ := exec_rotation rfl hs ht
  refine ⟨by decide, t, ht, hq ▸ hr0, hread, hc, fun t' ht' => ?_, fun ha => ?_⟩
  · obtain ⟨-, -, hcosine⟩ := exec_sincos hs ht'
    exact hr0.trans hcosine.symm
  · rw [ha] at hr0
    exact hr0.trans sincos_sixth_of_pi.2

theorem S_EPS : S EPS = 43 := by decide

/-- The saturated tangent near the asymptotes (42 R169). -/
theorem tangent_of_abs_le {s c : Word} (h : S (Fixed.abs c) ≤ 43) : tangent s c = if 0 < S s then MAX else MIN :=
  dif_pos (S_EPS ▸ h)

/-- The quotient away from them (42 R169). -/
theorem tangent_of_lt_abs {s c : Word} (h : 43 < S (Fixed.abs c)) : tangent s c = W (Int.tdiv (S s * 2 ^ 32) (S c)) :=
  dif_neg (not_le.2 (S_EPS ▸ h))

theorem final_tan_r0 (p : Vec) (f a : Word) : (final .tan p f a).r0 = tangent (sine p f) (cosine p f) := rfl

/-- Settles O9: `tangent` of the sine and the cosine, on each side of EPS. -/
theorem tanCompletes : Obligations.TanCompletes := by
  intro s hs q sn cs
  have hq : q = rotated s.a := iterate_rotationStart rfl s.a s.v
  obtain ⟨t, ht⟩ : ∃ t, exec .tan s = .next t := ⟨_, exec_idle hs⟩
  obtain ⟨hc, hr0, -, hread⟩ := exec_rotation rfl hs ht
  rw [← hq] at hr0
  have htan : t.r0 = tangent sn cs := hr0.trans (final_tan_r0 q _ _)
  refine ⟨t, ht, fun h hpos => ?_, fun h hnonpos => ?_, fun h => ?_, hread, hc⟩
  · rw [htan, tangent_of_abs_le h, if_pos hpos]
  · rw [htan, tangent_of_abs_le h, if_neg hnonpos]
  · rw [htan, tangent_of_lt_abs h]

end Sys2Proof.Machine
end

section
/-! PROOFS. The family of spec/43_vectoring_mode.md: the vectoring step (O17), the bounds on the vector and on the angle along the
32 steps (O25, O24), the three commands (O10, O11, O12), and the candidate of ATAN that ATAN2 selects (O27). -/

namespace Sys2Proof.Machine

open Sys2Proof.Const Sys2Proof.Fixed

/-! ### The vectoring step (43 R181) -/

/-- The step condition of each vectoring-mode command (43 R182, R183, R184). -/
def ccw (i : Instr) (p : Vec) (v : Word) : Bool :=
  match i with
  | .asin => ccwAsin p v
  | .acos => ccwAcos p v
  | _ => ccwAtan p v

/-- The four vectoring-mode commands share the step and differ in its condition (43 R180). -/
theorem iter_vectoring {i : Instr} (hi : i.isRotation = false) (k : Nat) (p : Vec) (v : Word) :
    iter i k p v = vectorStep (ccw i p v) k p := by
  cases i with
  | sincos | sin | cos | tan => cases hi
  | asin | acos | atan | atan2 => rfl

theorem vectorStep_ccw (k : Nat) (p : Vec) :
    vectorStep true k p =
      ⟨mul (sub p.x (asr p.y k)) (Rom.cos k), mul (add p.y (asr p.x k)) (Rom.cos k), add p.z (Rom.angle k)⟩ := rfl

theorem vectorStep_cw (k : Nat) (p : Vec) :
    vectorStep false k p =
      ⟨mul (add p.x (asr p.y k)) (Rom.cos k), mul (sub p.y (asr p.x k)) (Rom.cos k), sub p.z (Rom.angle k)⟩ := rfl

/-- The multiply by a table cosine does not wrap below 4, and floors. -/
theorem S_mul_cos {k : Nat} (hk : k < 32) {t : Word} (ht : |S t| ≤ 2 ^ 34) :
    S (mul t (Rom.cos k)) = S t * S (Rom.cos k) / 2 ^ 32 := by
  obtain ⟨hpos, hone⟩ := Rom.cos_pos_and_le_one k hk
  have hprod : |S t * S (Rom.cos k)| ≤ 2 ^ 34 * 4294967296 := by
    rw [abs_mul, abs_of_pos hpos]
    exact mul_le_mul ht hone hpos.le (by norm_num)
  rw [abs_le] at hprod
  exact S_mul (by omega) (by omega)

/-- The last two table cosines are ONE (20 R55). -/
theorem cos_eq_ONE : Rom.cos 30 = ONE ∧ Rom.cos 31 = ONE := by decide

/-- The multiply by ONE - 1 takes off the floored part of the factor below ONE. -/
theorem S_mul_cos_middle {k : Nat} (h16 : 16 ≤ k) (h29 : k ≤ 29) {t : Word} (ht : |S t| ≤ 2 ^ 34) :
    S (mul t (Rom.cos k)) = S t * 4294967295 / 2 ^ 32 := by
  rw [S_mul_cos (by omega) ht, Rom.cos_eq_one_sub_one k (by omega) h16]

/-- Settles O17: one shared step in the direction of `ccw`, and the floored product with ONE - 1 on each interval. -/
theorem vectoringStep : Obligations.VectoringStep := by
  refine ⟨fun i k p v hi => ?_, fun t => ⟨?_, ?_, fun k h16 h29 =>
    ⟨fun hlo hhi => ?_, fun hlo hhi => ?_, fun hlo hhi => ?_⟩⟩⟩
  · intro c
    have hc : ccw i p v = true ↔ c := by
      cases i with
      | sincos | sin | cos | tan => cases hi
      | asin | acos | atan | atan2 => exact decide_eq_true_iff
    rw [iter_vectoring hi]
    refine ⟨fun h => ?_, fun h => ?_⟩
    · rw [hc.2 h, vectorStep_ccw]
    · rw [Bool.eq_false_iff.2 (mt hc.1 h), vectorStep_cw]
  · rw [cos_eq_ONE.1, mul_ONE]
  · rw [cos_eq_ONE.2, mul_ONE]
  all_goals
    rw [S_mul_cos_middle h16 h29 (abs_le.2 ⟨by omega, by omega⟩)]
    omega

/-! ### The 32 steps -/

/-- The two start vectors of vectoring mode: that of ASIN, ATAN and ATAN2, and that of ACOS, a quarter turn on. -/
theorem vectoring_start {i : Instr} {a b : Word} {p : Vec} {w : Word} {f0 : Option Word}
    (h : setup i a b = .start p (some w) f0) :
    i.isRotation = false ∧ (p = ⟨ONE, ZERO, ZERO⟩ ∨ p = ⟨ZERO, ONE, HALF_PI⟩) := by
  refine ⟨(setup_start_writes h).2.2 rfl, ?_⟩
  cases i with
  | sincos | sin | cos | tan => cases h
  | asin => simp only [setup, setupAsin] at h; split at h <;> cases h; exact .inl rfl
  | acos => simp only [setup, setupAcos] at h; split at h <;> cases h; exact .inr rfl
  | atan => cases h; exact .inl rfl
  | atan2 => simp only [setup, setupAtan2] at h; split at h <;> cases h; exact .inl rfl

/-- What holds of the start vector, and what a step in either direction takes on to the next index, holds along the 32 steps. -/
theorem vectoring_invariant {P : Nat → Vec → Prop} {i : Instr} (hi : i.isRotation = false) {p : Vec} (hstart : P 0 p)
    (hstep : ∀ k < 32, ∀ d q, P k q → P (k + 1) (vectorStep d k q)) (v : Word) {k : Nat} (hk : k ≤ 32) :
    P k (iterate i v k p) := by
  induction k with
  | zero => exact hstart
  | succ k ih =>
    rw [iterate_succ, iter_vectoring hi]
    exact hstep k (by omega) _ _ (ih (by omega))

/-! ### The angle (43 R186) -/

theorem remainingAngles_nonneg : ∀ k ≤ 32, 0 ≤ remainingAngles k := by decide

/-- A step moves the angle by `angle k`, which is no longer to come. -/
theorem vectorStep_angle {k : Nat} (hk : k < 32) (d : Bool) (p : Vec)
    (h : |S p.z| + remainingAngles k ≤ 14233877858) :
    |S (vectorStep d k p).z| + remainingAngles (k + 1) ≤ 14233877858 := by
  have hpos := Rom.angle_pos k hk
  have hlater := remainingAngles_nonneg (k + 1) hk
  rw [remainingAngles_eq hk, ← remainingAngles_succ] at h
  have hz := abs_le.1 (le_refl |S p.z|)
  have hmove : |S (vectorStep d k p).z| ≤ |S p.z| + S (Rom.angle k) := by
    cases d with
    | true => rw [vectorStep_ccw, S_add (by omega) (by omega)]; exact abs_le.2 ⟨by omega, by omega⟩
    | false => rw [vectorStep_cw, S_sub (by omega) (by omega)]; exact abs_le.2 ⟨by omega, by omega⟩
  omega

/-- Settles O24: HALF_PI and the 32 table angles at the start, and `vectorStep_angle` along the steps. -/
theorem vectoringAngleStaysBounded : Obligations.VectoringAngleStaysBounded := by
  intro i a b p w f0 k hk h
  obtain ⟨hi, hp⟩ := vectoring_start h
  have hstart : |S p.z| + remainingAngles 0 ≤ 14233877858 := by rcases hp with rfl | rfl <;> decide
  have hlater := remainingAngles_nonneg k hk
  have hz := vectoring_invariant (P := fun k q => |S q.z| + remainingAngles k ≤ 14233877858) hi hstart
    (fun k hk => vectorStep_angle hk) w hk
  omega

/-! ### The vector (43 R186; log 20)

The exact step does not lengthen the vector but for the last two, where the table cosine is ONE; the floors of one step add an
error vector shorter than 3 raw units. -/

/-- The triangle inequality, in squares. -/
theorem sq_add_sq_triangle {x y e f n m : Int} (hn : 0 ≤ n) (hm : 0 ≤ m) (h : x ^ 2 + y ^ 2 ≤ n ^ 2)
    (he : e ^ 2 + f ^ 2 ≤ m ^ 2) : (x + e) ^ 2 + (y + f) ^ 2 ≤ (n + m) ^ 2 := by
  have hsq : (x * e + y * f) ^ 2 ≤ (n * m) ^ 2 :=
    calc (x * e + y * f) ^ 2 ≤ (x ^ 2 + y ^ 2) * (e ^ 2 + f ^ 2) := by linarith [sq_nonneg (x * f - y * e)]
      _ ≤ n ^ 2 * m ^ 2 := mul_le_mul h he (by positivity) (by positivity)
      _ = (n * m) ^ 2 := by ring
  have hinner : x * e + y * f ≤ n * m := le_of_abs_le (abs_le_of_sq_le_sq hsq (by positivity))
  linarith

/-- A new coordinate: when the floored shift leaves `u` within one unit of the exact `w / d`, the floored multiply by the table
cosine `c` leaves the result within two units of the exact one. -/
theorem abs_floored_sub_exact_le {u w c d : Int} (hd : 0 < d) (hc : 0 < c) (hc1 : c ≤ 2 ^ 32) (hu : |d * u - w| ≤ d) :
    |2 ^ 32 * d * (u * c / 2 ^ 32) - c * w| ≤ 2 ^ 32 * d * 2 := by
  have h0 := Int.emod_nonneg (u * c) (show (2 ^ 32 : Int) ≠ 0 by norm_num)
  have h1 := Int.emod_lt_of_pos (u * c) (show (0 : Int) < 2 ^ 32 by norm_num)
  have hmul : |d * (u * c % 2 ^ 32)| ≤ 2 ^ 32 * d := by
    rw [abs_mul, abs_of_pos hd, abs_of_nonneg h0, Int.mul_comm d]
    exact mul_le_mul_of_nonneg_right h1.le hd.le
  have hshift : |c * (d * u - w)| ≤ 2 ^ 32 * d := by
    rw [abs_mul, abs_of_pos hc]
    exact mul_le_mul hc1 hu (abs_nonneg _) (by norm_num)
  calc |2 ^ 32 * d * (u * c / 2 ^ 32) - c * w| = |c * (d * u - w) - d * (u * c % 2 ^ 32)| := by
        rw [Int.emod_def]; congr 1; ring
    _ ≤ |c * (d * u - w)| + |d * (u * c % 2 ^ 32)| := abs_sub _ _
    _ ≤ 2 ^ 32 * d * 2 := by linarith

/-- The counter-clockwise step on integers, with shift divisor `d` and table cosine `c`: where the exact step lengthens the vector
by at most 1, the floored one lengthens it by at most 4. -/
theorem sq_vectorStep_le {x y c d n : Int} (hd : 0 < d) (hc : 0 < c) (hc1 : c ≤ 2 ^ 32) (hn : 0 ≤ n)
    (h : x ^ 2 + y ^ 2 ≤ n ^ 2) (hexact : c ^ 2 * (d ^ 2 + 1) * n ^ 2 ≤ (2 ^ 32 * d * (n + 1)) ^ 2) :
    ((x - y / d) * c / 2 ^ 32) ^ 2 + ((y + x / d) * c / 2 ^ 32) ^ 2 ≤ (n + 4) ^ 2 := by
  have hshift : ∀ t : Int, d * (t / d) ≤ t ∧ t < d * (t / d) + d := fun t =>
    ⟨Int.mul_ediv_self_le hd.ne', Int.lt_mul_ediv_self_add hd⟩
  obtain ⟨hx1, hx2⟩ := hshift x
  obtain ⟨hy1, hy2⟩ := hshift y
  have hx := abs_le.1 (abs_floored_sub_exact_le (u := x - y / d) (w := d * x - y) hd hc hc1
    (abs_le.2 ⟨by linarith, by linarith⟩))
  have hy := abs_le.1 (abs_floored_sub_exact_le (u := y + x / d) (w := d * y + x) hd hc hc1
    (abs_le.2 ⟨by linarith, by linarith⟩))
  have hrotated : (c * (d * x - y)) ^ 2 + (c * (d * y + x)) ^ 2 ≤ (2 ^ 32 * d * (n + 1)) ^ 2 :=
    calc (c * (d * x - y)) ^ 2 + (c * (d * y + x)) ^ 2 = c ^ 2 * (d ^ 2 + 1) * (x ^ 2 + y ^ 2) := by ring
      _ ≤ c ^ 2 * (d ^ 2 + 1) * n ^ 2 := mul_le_mul_of_nonneg_left h (by positivity)
      _ ≤ (2 ^ 32 * d * (n + 1)) ^ 2 := hexact
  have herror := add_le_add (sq_le_sq' hx.1 hx.2) (sq_le_sq' hy.1 hy.2)
  have htriangle := sq_add_sq_triangle (m := 2 ^ 32 * d * 3) (by positivity) (by positivity) hrotated
    (herror.trans (by linarith [sq_nonneg (2 ^ 32 * d)]))
  rw [add_sub_cancel, add_sub_cancel] at htriangle
  refine le_of_mul_le_mul_left ?_ (show 0 < (2 ^ 32 * d) ^ 2 by positivity)
  linarith

/-- A bound on the length before step `k`. -/
def lengthBound (k : Nat) : Int := 4294967296 + 4 * k

theorem lengthBound_range {k : Nat} (hk : k ≤ 32) : 0 ≤ lengthBound k ∧ lengthBound k ≤ 4294967296 + 128 := by
  rw [lengthBound]
  omega

/-- The exact step takes a vector within the bound at most 1 past it: `COS[k]` is rounded down, and where it is ONE the growth is
below one raw unit. -/
theorem lengthBound_exact : ∀ k < 32,
    S (Rom.cos k) ^ 2 * ((2 ^ k) ^ 2 + 1) * lengthBound k ^ 2 ≤ (2 ^ 32 * 2 ^ k * (lengthBound k + 1)) ^ 2 := by decide

/-- No coordinate exceeds the length of the vector. -/
theorem coordinates_le_of_normSq {p : Vec} {n : Int} (hn : 0 ≤ n) (h : normSq p ≤ n ^ 2) : |S p.x| ≤ n ∧ |S p.y| ≤ n :=
  ⟨abs_le_of_sq_le_sq (h.trans' (le_add_of_nonneg_right (sq_nonneg _))) hn,
    abs_le_of_sq_le_sq (h.trans' (le_add_of_nonneg_left (sq_nonneg _))) hn⟩

/-- Below 2 no operation on the vector wraps, and each new coordinate is the one on integers. -/
theorem S_vectorStep_coordinate {k : Nat} (hk : k < 32) {u w : Word} (hu : |S u| ≤ 2 ^ 33) (hw : |S w| ≤ 2 ^ 33) :
    S (mul (add u (asr w k)) (Rom.cos k)) = (S u + S w / 2 ^ k) * S (Rom.cos k) / 2 ^ 32 ∧
    S (mul (sub u (asr w k)) (Rom.cos k)) = (S u - S w / 2 ^ k) * S (Rom.cos k) / 2 ^ 32 := by
  have hwk := abs_le.1 ((Int.abs_ediv_le_abs (S w) (2 ^ k)).trans hw)
  rw [abs_le] at hu
  rw [← S_asr] at hwk ⊢
  have hadd : S (add u (asr w k)) = S u + S (asr w k) := S_add (by omega) (by omega)
  have hsub : S (sub u (asr w k)) = S u - S (asr w k) := S_sub (by omega) (by omega)
  constructor
  · rw [S_mul_cos hk (abs_le.2 ⟨by omega, by omega⟩), hadd]
  · rw [S_mul_cos hk (abs_le.2 ⟨by omega, by omega⟩), hsub]

/-- Both directions keep the bound: the clockwise step is the counter-clockwise one with the coordinates exchanged. -/
theorem vectorStep_length {k : Nat} (hk : k < 32) (d : Bool) (p : Vec) (h : normSq p ≤ lengthBound k ^ 2) :
    normSq (vectorStep d k p) ≤ lengthBound (k + 1) ^ 2 := by
  obtain ⟨hpos, hone⟩ := Rom.cos_pos_and_le_one k hk
  obtain ⟨hn0, hn⟩ := lengthBound_range hk.le
  obtain ⟨hx, hy⟩ := coordinates_le_of_normSq hn0 h
  obtain ⟨hxadd, hxsub⟩ := S_vectorStep_coordinate hk (u := p.x) (w := p.y) (by omega) (by omega)
  obtain ⟨hyadd, hysub⟩ := S_vectorStep_coordinate hk (u := p.y) (w := p.x) (by omega) (by omega)
  have hd : (0 : Int) < 2 ^ k := by positivity
  have hnext : lengthBound (k + 1) = lengthBound k + 4 := by rw [lengthBound, lengthBound]; omega
  rw [hnext, normSq]
  cases d with
  | true =>
    rw [vectorStep_ccw, hxsub, hyadd]
    exact sq_vectorStep_le hd hpos hone hn0 h (lengthBound_exact k hk)
  | false =>
    rw [vectorStep_cw, hxadd, hysub, Int.add_comm]
    rw [normSq, Int.add_comm] at h
    exact sq_vectorStep_le hd hpos hone hn0 h (lengthBound_exact k hk)

/-- Settles O25: both start vectors have length ONE, and `vectorStep_length` along the steps. -/
theorem vectoringVectorStaysBounded : Obligations.VectoringVectorStaysBounded := by
  intro i a b p w f0 k hk h
  obtain ⟨hi, hp⟩ := vectoring_start h
  have hstart : normSq p ≤ lengthBound 0 ^ 2 := by rcases hp with rfl | rfl <;> decide
  have hlen := vectoring_invariant (P := fun k q => normSq q ≤ lengthBound k ^ 2) hi hstart
    (fun k hk => vectorStep_length hk) w hk
  obtain ⟨hn0, hn⟩ := lengthBound_range hk
  obtain ⟨hx, hy⟩ := coordinates_le_of_normSq hn0 hlen
  exact ⟨hx.trans hn, hy.trans hn⟩

/-! ### The three commands (43 R182 to R184) -/

/-- A vectoring-mode command taken while idle whose SETUP starts (41 R137, R138). -/
theorem exec_vectoring {i : Instr} {s : State} {p : Vec} {v : Word} (hs : s.phase = .idle)
    (h : setup i s.a s.b = .start p (some v) none) :
    let r := final i (iterate i v 32 p) s.f s.a
    ∃ t, exec i s = .next t ∧ t.r0 = r.r0 ∧ (∀ w, r.r1 = some w → t.r1 = w) ∧ t.v = v ∧ CompletedBy i s t := by
  obtain ⟨hr0, hr1, hv, -⟩ := finish_fields (s := accept i s) h
  exact ⟨_, exec_idle hs, hr0, fun w hw => hr1.trans (congrArg (Option.getD · _) hw), hv, finish_accept_completedBy h⟩

/-- In [-1, 1] the guard of ASIN and ACOS lets the operand pass. -/
theorem setup_in_domain {a : Word} (h1 : -4294967296 ≤ S a) (h2 : S a ≤ 4294967296) (b : Word) :
    setup .asin a b = .start ⟨ONE, ZERO, ZERO⟩ (some a) none ∧
    setup .acos a b = .start ⟨ZERO, ONE, HALF_PI⟩ (some a) none := by
  have hguard : ¬ (S a < S NEG_ONE ∨ S ONE < S a) := not_or.2 ⟨not_lt.2 h1, not_lt.2 h2⟩
  exact ⟨if_neg hguard, if_neg hguard⟩

theorem final_asin_of_pos {p : Vec} (h : 0 < S p.z) (f a : Word) : final .asin p f a = ⟨p.z, some (sub PI p.z)⟩ := if_pos h

theorem final_asin_of_nonpos {p : Vec} (h : ¬ 0 < S p.z) (f a : Word) :
    final .asin p f a = ⟨sub NEG_PI p.z, some p.z⟩ := if_neg h

/-- Settles O10: SETUP passes the operand, and FINAL forms the pair by the sign of Z. -/
theorem asinCompletes : Obligations.AsinCompletes := by
  intro s hs h1 h2
  obtain ⟨t, ht, hr0, hr1, hv, hc⟩ := exec_vectoring hs (setup_in_domain h1 h2 s.b).1
  generalize iterate .asin s.a 32 ⟨ONE, ZERO, ZERO⟩ = q at hr0 hr1 ⊢
  refine ⟨t, ht, fun h => ?_, fun h => ?_, hv, hc⟩
  · rw [final_asin_of_pos h] at hr0 hr1
    exact ⟨hr0, hr1 _ rfl⟩
  · rw [final_asin_of_nonpos h] at hr0 hr1
    exact ⟨hr0, hr1 _ rfl⟩

/-- Settles O11: SETUP passes the operand, and FINAL gives Z with both signs. -/
theorem acosCompletes : Obligations.AcosCompletes := by
  intro s hs h1 h2 z
  obtain ⟨t, ht, hr0, hr1, hv, hc⟩ := exec_vectoring hs (setup_in_domain h1 h2 s.b).2
  exact ⟨t, ht, hr0, hr1 _ rfl, hv, hc⟩

theorem final_atan (p : Vec) (f a : Word) :
    final .atan p f a = ⟨(atanCandidates p.z).1, some (atanCandidates p.z).2⟩ := rfl

theorem atanCandidates_of_pos {z : Word} (h : 0 < S z) : atanCandidates z = (sub z PI, z) := if_pos h

theorem atanCandidates_of_nonpos {z : Word} (h : ¬ 0 < S z) : atanCandidates z = (z, add z PI) := if_neg h

/-- Settles O12: SETUP of ATAN never faults, and FINAL forms the pair by the sign of Z. -/
theorem atanCompletes : Obligations.AtanCompletes := by
  intro s hs
  obtain ⟨t, ht, hr0, hr1, hv, hc⟩ := exec_vectoring (i := .atan) hs rfl
  generalize iterate .atan s.a 32 ⟨ONE, ZERO, ZERO⟩ = q at hr0 hr1 ⊢
  rw [final_atan] at hr0 hr1
  refine ⟨t, ht, fun h => ?_, fun h => ?_, hv, hc⟩
  · rw [atanCandidates_of_pos h] at hr0 hr1
    exact ⟨hr0, hr1 _ rfl⟩
  · rw [atanCandidates_of_nonpos h] at hr0 hr1
    exact ⟨hr0, hr1 _ rfl⟩

/-! ### ATAN2 and the candidates of ATAN (44 R200) -/

theorem ratio_eq (a b : Word) : ratio a b = if b = 0#64 then MAX else W (Int.tdiv (S a * 2 ^ 32) (S b)) := by
  unfold ratio
  split <;> rfl

theorem setup_atan2_of_ne_zero {a b : Word} (h : ¬ (a = 0#64 ∧ b = 0#64)) :
    setup .atan2 a b = .start ⟨ONE, ZERO, ZERO⟩ (some (ratio a b)) none := if_neg h

/-- Settles O27: ATAN2 starts and iterates as ATAN does on the ratio, so both end in one Z and form its candidates. -/
theorem atan2SelectsAnAtanCandidate : Obligations.Atan2SelectsAnAtanCandidate := by
  intro a b h
  rw [← ratio_eq]
  refine ⟨_, _, answer_of_start (i := .atan) rfl 0#64 0#64, ?_⟩
  rw [answer_of_start (setup_atan2_of_ne_zero h) 0#64 0#64, iterate_atan2]
  rfl

end Sys2Proof.Machine
end

section
/-! PROOFS. The family of spec/44_atan2.md: ATAN2 from an idle state (O13). -/

namespace Sys2Proof.Machine

open Sys2Proof.Const Sys2Proof.Fixed

theorem final_atan2_of_neg {a : Word} (h : S a < 0) (p : Vec) (f : Word) :
    final .atan2 p f a = ⟨(atanCandidates p.z).1, none⟩ := congrArg (Results.mk · none) (if_pos h)

theorem final_atan2_of_nonneg {a : Word} (h : ¬ S a < 0) (p : Vec) (f : Word) :
    final .atan2 p f a = ⟨(atanCandidates p.z).2, none⟩ := congrArg (Results.mk · none) (if_neg h)

theorem atanCandidates_fst (z : Word) : (atanCandidates z).1 = if 0 < S z then sub z PI else z :=
  apply_ite Prod.fst ..

theorem atanCandidates_snd (z : Word) : (atanCandidates z).2 = if 0 < S z then z else add z PI :=
  apply_ite Prod.snd ..

/-- Settles O13: SETUP passes the ratio, FINAL selects the candidate by the sign of A, and the code of ATAN2 leaves R1 UNSPEC. -/
theorem atan2Completes : Obligations.Atan2Completes := by
  intro s hs h
  rw [← ratio_eq]
  intro r z
  obtain ⟨t, ht, hr0, -, hv, hc⟩ := exec_vectoring hs (setup_atan2_of_ne_zero h)
  have hfunc : t.func = 7#3 := hc.func_eq
  refine ⟨t, ht, fun hneg => ?_, fun hnonneg => ?_, readRegister_R1_invalid (by simp [hfunc]), hv, hc⟩
  · rw [hr0, final_atan2_of_neg hneg, atanCandidates_fst]
  · rw [hr0, final_atan2_of_nonneg hnonneg, atanCandidates_snd]

end Sys2Proof.Machine
end

section
/-! PROOFS. The family of spec/60_exceptions.md: the STATUS word after each fatal command (O47). -/

namespace Sys2Proof.Machine

/-- The STATUS word of a recorded fault with OVR clear: ERR, CAUSE and FUNC alone (60 R213, R214). -/
theorem statusWord_of_fault {t : State} (hp : t.phase = .idle) (hd : t.done = false) (he : t.err = true)
    (ho : t.ovr = false) :
    statusWord t = 4#64 ||| t.cause.code.setWidth 64 <<< 4 ||| t.func.setWidth 64 <<< 8 := by
  simp [statusWord, busy, flagWord, hp, hd, he, ho]

/-- An illegal word leaves ERR and CAUSE 3 in STATUS, and its own low bits in FUNC (60 R214). -/
theorem statusWord_rejectCommand {s : State} (ho : s.ovr = false) (func : BitVec 3) :
    statusWord (rejectCommand func s) = 0x34#64 ||| func.setWidth 64 <<< 8 := by
  rw [statusWord_of_fault (t := rejectCommand func s) rfl rfl rfl ho]
  simp [Cause.code]

/-- A command whose SETUP faults reports its fault in STATUS, and neither result can be read. -/
theorem exec_fault_report {i : Instr} {s : State} {c : Cause} (hp : s.phase = .idle) (ho : s.ovr = false)
    (h : setup i s.a s.b = .fault c) :
    ∃ t, exec i s = .next t ∧ statusWord t = 4#64 ||| c.code.setWidth 64 <<< 4 ||| i.code.setWidth 64 <<< 8 ∧
      readRegister Addr.R0 t = none ∧ readRegister Addr.R1 t = none := by
  obtain ⟨t, ht, hfault⟩ := exec_faultedWith hp h
  have hovr : t.ovr = false := hfault.frame.ovr_eq.trans ho
  refine ⟨t, ht, ?_, hfault.reads⟩
  rw [statusWord_of_fault hfault.phase_eq hfault.done_eq hfault.err_eq hovr, hfault.cause_eq, hfault.func_eq]

/-- The zero vector meets the guard of ATAN2 (44 R200). -/
theorem setup_atan2_of_zero {a b : Word} (ha : a = 0#64) (hb : b = 0#64) : setup .atan2 a b = .fault .zeroVector :=
  if_pos ⟨ha, hb⟩

/-- Settles O47: the three commands by the fault of their SETUP, an illegal word by the fault its CMD write raises. -/
theorem fatalCommandsReportTheirStatus : Obligations.FatalCommandsReportTheirStatus := by
  intro s hp ho
  refine ⟨fun h => ?_, fun ha hb => exec_fault_report hp ho (setup_atan2_of_zero ha hb), fun w hw => ?_⟩
  · obtain ⟨hasin, hacos⟩ := setup_out_of_domain h s.b
    exact ⟨exec_fault_report hp ho hasin, exec_fault_report hp ho hacos⟩
  · rw [busWrite_CMD_illegal hp hw, ← rejectCommand_idle hp]
    exact ⟨statusWord_rejectCommand ho _, readRegister_R0 (rejectCommand _ s), readRegister_R1_invalid (.inl rfl)⟩

end Sys2Proof.Machine
end

section
/-! PROOFS. The family of spec/70_reset_and_hazards.md: the results between two commands (O40), and reset (O49). -/

namespace Sys2Proof.Machine

/-! ### R0 and R1 outside their validity (10 R22) -/

theorem readRegister_results_of_not_done {s : State} (h : s.done = false) :
    readRegister Addr.R0 s = none ∧ readRegister Addr.R1 s = none :=
  ⟨by simp [readRegister_R0, h], readRegister_R1_invalid (.inl h)⟩

/-- A CMD write taken while idle, legal or illegal, clears DONE (41 R131). -/
theorem busWrite_CMD_done {s : State} (hp : s.phase = .idle) (w : Word) : (busWrite Addr.CMD w s).done = false := by
  by_cases hw : w.extractLsb' 3 61 = 0#61
  · rw [busWrite_CMD_legal hp hw, accept_done]
  · rw [busWrite_CMD_illegal hp hw]

/-! ### What the host can write without a command (20 R58) -/

/-- Apart from CMD the host writes A, B and OVR only. -/
theorem busWrite_shape {addr : BitVec 8} (h : addr ≠ Addr.CMD) (w : Word) (s : State) :
    ∃ a b o, busWrite addr w s = { s with a := a, b := b, ovr := o } := by
  rcases busWrite_cases addr w s with he | ⟨-, he⟩ | ⟨-, he⟩ | ⟨-, ha, -⟩ | ⟨-, ha, -⟩ | ⟨-, he⟩ | ⟨-, -, he⟩
  case inr.inr.inr.inl | inr.inr.inr.inr.inl => exact absurd ha h
  all_goals exact ⟨_, _, _, he⟩

/-- A transaction that is no CMD write can also deliver a word, but reaches nothing else. -/
theorem transact_shape {tr : Transaction} (h : tr.we = true → tr.addr ≠ Addr.CMD) (s : State) :
    ∃ a b o n w, transact tr s = { s with a := a, b := b, ovr := o, free := n, rdata := w } := by
  obtain ⟨we, addr, d⟩ := tr
  cases we with
  | false =>
    obtain ⟨w, n, he⟩ := busRead_shape addr s
    exact ⟨_, _, _, n, w, (transact_read addr d s).trans he⟩
  | true =>
    obtain ⟨a, b, o, he⟩ := busWrite_shape (h rfl) d s
    exact ⟨a, b, o, _, _, (transact_write addr d s).trans he⟩

/-- While idle an event that is no command and no reset changes A, B, OVR and the fields that belong to the host and the
model, and nothing else (70 R246). -/
theorem step_idle_shape {s t : State} {e : Event} {rest : List Event} (hp : s.phase = .idle) (he : s.events = e :: rest)
    (hstep : step s = .next t) (hcommand : ∀ w, e ≠ .command w) (hreset : e ≠ .reset) (hcopy : e ≠ .copy Addr.CMD)
    (hbus : ∀ tr : Transaction, e = .bus tr → tr.we = true → tr.addr ≠ Addr.CMD) :
    ∃ a b o n w l, t = { s with a := a, b := b, ovr := o, free := n, rdata := w, events := l } := by
  cases e with
  | bus tr =>
    cases (step_bus he).symm.trans hstep
    obtain ⟨a, b, o, n, w, ht⟩ := transact_shape (hbus tr rfl) { s with events := rest }
    exact ⟨a, b, o, n, w, rest, ht⟩
  | micro =>
    have hmicro : micro { s with events := rest } = .next { s with events := rest } := micro_idle hp
    cases hmicro.symm.trans ((step_micro he).symm.trans hstep)
    exact ⟨_, _, _, _, _, rest, rfl⟩
  | command w => exact absurd rfl (hcommand w)
  | poll =>
    cases (step_poll_idle he hp).symm.trans hstep
    exact ⟨_, _, _, _, _, rest, rfl⟩
  | copy dst =>
    have hdst : dst ≠ Addr.CMD := fun h => hcopy (congrArg Event.copy h)
    cases (step_copy he).symm.trans hstep
    obtain ⟨a, b, o, ht⟩ := busWrite_shape hdst s.rdata { s with events := rest }
    exact ⟨a, b, o, _, _, rest, ht⟩
  | reset => exact absurd rfl hreset

/-- Settles O40: no result and no flag of a command is among the fields of `step_idle_shape`, and the CMD write clears DONE. -/
theorem resultsLastUntilTheNextCommand : Obligations.ResultsLastUntilTheNextCommand := by
  refine ⟨fun s t e rest hp he hstep hcommand hreset hcopy hbus => ?_,
    fun s w hp => readRegister_results_of_not_done (busWrite_CMD_done hp w)⟩
  obtain ⟨a, b, o, n, w, l, rfl⟩ := step_idle_shape hp he hstep hcommand hreset hcopy hbus
  exact ⟨rfl, rfl, rfl, rfl, rfl, rfl, hp, rfl, rfl⟩

/-! ### Reset (70 R240) -/

/-- Settles O49: the reset event is the step `hardReset` whatever PHASE was, and R0 and R1 are not readable because DONE is 0. -/
theorem resetInAnyState : Obligations.ResetInAnyState := fun s rest he =>
  ⟨hardReset { s with events := rest }, step_reset he, rfl, rfl, rfl, rfl, rfl, rfl, rfl, rfl, rfl,
    readRegister_results_of_not_done (hardReset_done _)⟩

end Sys2Proof.Machine
end
